-- ==== Sys2Proof/Word.lean ====
section
/-! DEFINITION. The widths the spec gives its values (00_scope.md R8, R9): bytes, 16-bit block numbers, 32-bit codewords,
26-bit fragments. -/

namespace Sys2Proof

/-- An 8-bit unsigned value (00_scope.md R9). -/
abbrev Byte := BitVec 8

/-- A finite sequence of bytes, offset 0 first (00_scope.md R9). -/
abbrev Bytes := List Byte

/-- A 16-bit block number (10_state.md R22). -/
abbrev BlockNo := BitVec 16

/-- A codeword: 32 bits, position `p` is bit `p` (20_memory.md R53, 30_encoding.md R70). -/
abbrev Codeword := BitVec 32

/-- A decoded fragment: the 26-bit value `FRAG` (40_codec.md R108). -/
abbrev Frag := BitVec 26

end Sys2Proof
end

