-- ==== Sys2Proof/Config.lean ====
section
/-! DEFINITION. The configuration parameters of 00_scope.md R6: one record, fixed for the life of an instance. -/

namespace Sys2Proof

/-- The identity string of the hardware (00_scope.md R1). -/
def identity : String :=
  "HammingTFTP-core/HTFTP-v7"

/-- `WIRE_BIT_MAP` (20_memory.md R53; 90_conflicts.md C1). -/
inductive WireBitMap where
  | le | be
deriving DecidableEq, Repr

/-- `SYNDROME_ZERO_POLICY` (40_codec.md R109). -/
inductive SyndromeZeroPolicy where
  | correctParity | reject
deriving DecidableEq, Repr

/-- `PACKING` (41_deinterleave.md R131; 90_conflicts.md C16). -/
inductive Packing where
  | separateCarry | stream
deriving DecidableEq, Repr

/-- `CARRY_ORDER` (41_deinterleave.md R134). -/
inductive CarryOrder where
  | firstIsLsb | firstIsMsb
deriving DecidableEq, Repr

/-- `MAX_RESENDS`: an integer of at least 1, or `UNBOUNDED` (00_scope.md R6). -/
inductive ResendBound where
  | unbounded
  | atMost (n : Nat)
deriving DecidableEq, Repr

/-- The parameter record (00_scope.md R6). "A model takes the parameter record as an argument": here it rides in
`Machine.State.cfg`, which no step changes (assumption log 3). -/
structure Params where
  /-- `N_CW`: codewords in a full data block; the spec leaves it OPEN (92_eei_decisions.md D11). -/
  nCw : Nat
  /-- `WIRE_BIT_MAP`. -/
  wireBitMap : WireBitMap
  /-- `SYNDROME_ZERO_POLICY`. -/
  syndromeZero : SyndromeZeroPolicy
  /-- `PACKING`. -/
  packing : Packing
  /-- `CARRY_ORDER`. -/
  carryOrder : CarryOrder
  /-- `TRIM_THRESHOLD`, `0..FULL_DATA_BYTES`. -/
  trimThreshold : Nat
  /-- `MODE`: a byte string without 0x00. -/
  mode : Bytes
  /-- `INITIAL_EXPECTED`. -/
  initialExpected : BlockNo
  /-- `TIMEOUT`, in milliseconds. No rule depends on it (92_eei_decisions.md D39), so nothing reads it
  (assumption log 20). DESIGN CHOICE, safe: the spec allows any positive duration and fixes no unit; a whole number of milliseconds is
  the model's resolution (assumption log 26). -/
  timeoutMs : Nat
  /-- `MAX_RESENDS`. -/
  maxResends : ResendBound
deriving DecidableEq, Repr

end Sys2Proof
end

