-- ==== Sys2Proof/Machine/Bits.lean ====
section
/-! DEFINITION. Bit fields and byte order: the primitives of 00_scope.md R8, the block-number field (20_memory.md R52) and
the assembly of a codeword from wire bytes (20_memory.md R53). -/

namespace Sys2Proof.Machine

/-- The number whose bit `i` is entry `i` of the list. -/
def bitsToNat : List Bool → Nat
  | [] => 0
  | b :: bs => b.toNat + 2 * bitsToNat bs

/-- `popcount(v)`: the number of 1 bits (00_scope.md R8). -/
def popcount {n : Nat} (v : BitVec n) : Nat :=
  ((List.range n).filter fun k => v.getLsbD k).length

/-- `v` with bit `k` written to `b`. -/
def setBit {n : Nat} (v : BitVec n) (k : Nat) (b : Bool) : BitVec n :=
  (v &&& ~~~(1#n <<< k)) ||| (if b then 1#n <<< k else 0#n)

/-- The block number of two header bytes, high byte first (20_memory.md R52). -/
def blockOf (hi lo : Byte) : BlockNo :=
  hi.setWidth 16 * 256 + lo.setWidth 16

/-- `v[15:8]` (20_memory.md R52). -/
def blockHi (v : BlockNo) : Byte :=
  v.extractLsb' 8 8

/-- `v[7:0]` (20_memory.md R52). -/
def blockLo (v : BlockNo) : Byte :=
  v.extractLsb' 0 8

/-- The codeword of four wire bytes in transmission order (20_memory.md R53). -/
def assemble (m : WireBitMap) (b0 b1 b2 b3 : Byte) : Codeword :=
  match m with
  | .le => b0.setWidth 32 ||| (b1.setWidth 32 <<< 8) ||| (b2.setWidth 32 <<< 16) ||| (b3.setWidth 32 <<< 24)
  | .be => (b0.setWidth 32 <<< 24) ||| (b1.setWidth 32 <<< 16) ||| (b2.setWidth 32 <<< 8) ||| b3.setWidth 32

/-- The four wire bytes of a codeword in transmission order: the inverse of `assemble` (20_memory.md R53). -/
def wireBytes (m : WireBitMap) (cw : Codeword) : Bytes :=
  match m with
  | .le => [cw.extractLsb' 0 8, cw.extractLsb' 8 8, cw.extractLsb' 16 8, cw.extractLsb' 24 8]
  | .be => [cw.extractLsb' 24 8, cw.extractLsb' 16 8, cw.extractLsb' 8 8, cw.extractLsb' 0 8]

end Sys2Proof.Machine
end

