-- ==== Sys2Proof/Machine/Params.lean ====
section
/-! DEFINITION. The constants derived from the parameters (00_scope.md R7), their legal values and their defaults (R6). -/

namespace Sys2Proof

/-- `DLEN(n)`: the bytes the de-interleaver emits for `n` fragments (00_scope.md R7, 41_deinterleave.md R138). -/
def Machine.dlen (packing : Packing) (n : Nat) : Nat :=
  match packing with
  | .separateCarry => 13 * (n / 4) + 3 * (n % 4)
  | .stream => 26 * n / 8

/-- `FULL_DATA_BYTES = DLEN(N_CW)` (00_scope.md R7). -/
def Params.fullDataBytes (p : Params) : Nat :=
  Machine.dlen p.packing p.nCw

/-- `MAX_DGRAM = 4 + 4*N_CW` (00_scope.md R7). -/
def Params.maxDgram (p : Params) : Nat :=
  4 + 4 * p.nCw

/-- `RESENDS >= MAX_RESENDS` with `MAX_RESENDS` bounded (43_session.md R195). -/
def ResendBound.reached (b : ResendBound) (resends : Nat) : Bool :=
  match b with
  | .unbounded => false
  | .atMost n => decide (n ≤ resends)

/-- A count of resends that a bounded `MAX_RESENDS` lets happen (43_session.md R195). -/
def ResendBound.allows (b : ResendBound) (resends : Nat) : Bool :=
  match b with
  | .unbounded => true
  | .atMost n => decide (resends ≤ n)

/-- A legal value of `MAX_RESENDS` (00_scope.md R6). -/
def ResendBound.legal (b : ResendBound) : Bool :=
  match b with
  | .unbounded => true
  | .atMost n => decide (1 ≤ n)

/-- The legal values of the parameters (00_scope.md R6); operations are total on other values too (assumption log 19).
A positive TIMEOUT is a positive whole number of milliseconds (assumption log 26). -/
abbrev Params.Legal (p : Params) : Prop :=
  1 ≤ p.nCw ∧ p.trimThreshold ≤ p.fullDataBytes ∧ (0 : Byte) ∉ p.mode ∧ 0 < p.timeoutMs ∧ p.maxResends.legal = true

/-- The default of every parameter but `N_CW`, which the spec leaves OPEN (00_scope.md R6). -/
def Params.standard (nCw : Nat) : Params where
  nCw := nCw
  wireBitMap := .le
  syndromeZero := .correctParity
  packing := .separateCarry
  carryOrder := .firstIsLsb
  trimThreshold := Machine.dlen .separateCarry nCw
  mode := [0x6F, 0x63, 0x74, 0x65, 0x74]
  initialExpected := 0x0001
  timeoutMs := 4500
  maxResends := .unbounded

/-- DESIGN CHOICE (unsafe; assumption log 4): the record `Machine.State.reset` carries takes `N_CW = 4`, the value of the
spec's vectors. No statement rests on it. -/
def Params.default : Params :=
  Params.standard 4

end Sys2Proof
end

