-- ==== Sys2Proof/Syntax.lean ====
section
/-! DEFINITION. The instructions: one constructor for each row of the opcode table, and the inputs that carry them. -/

namespace Sys2Proof

/-- The `addr` operand of START (10_state.md R40, R44). The block tests it for `none` and uses nothing else of it:
binding a resolved address is the host's duty (10_state.md R42). Assumption log 13. -/
inductive PeerAddr where
  /-- `addr=none`: the resolver gave no address. -/
  | none
  /-- The resolver gave an address, which the host has bound the transport to. -/
  | bound
deriving DecidableEq, Repr

/-- One constructor per row of spec/opcode_table.json, in the table's order. -/
inductive Instr where
  /-- RRQ, sent: `[00, 01] name 00 mode 00` (30_encoding.md R75; assumption log 24). -/
  | rrq (name mode : Bytes)
  /-- RRQ_ERR, sent: `[00, 02] name 00 mode 00` (30_encoding.md R75). -/
  | rrqErr (name mode : Bytes)
  /-- ACK, sent: `[00, 04, blockHi, blockLo]` (30_encoding.md R77). -/
  | ack (block : BlockNo)
  /-- NACK, sent: `[00, 06, blockHi, blockLo]` (30_encoding.md R78). -/
  | nack (block : BlockNo)
  /-- ERROR, received: `[b0, 05, x, y]` and the bytes from offset 4 on (30_encoding.md R79). -/
  | error (b0 x y : Byte) (rest : Bytes)
  /-- DATA, received: `[b0, 03, blockHi, blockLo]` and the bytes from offset 4 on (30_encoding.md R76). -/
  | data (b0 : Byte) (block : BlockNo) (rest : Bytes)
  /-- RX_OTHER, received: as DATA with any other opcode byte (30_encoding.md R80). -/
  | rxOther (b0 op : Byte) (block : BlockNo) (rest : Bytes)
  /-- RUNT, received: a datagram shorter than 4 bytes (43_session.md R179). -/
  | runt (datagram : Bytes)
  /-- HAM_CODEWORD: one 32-bit codeword for HAM_DECODE (30_encoding.md R70, 40_codec.md R105). -/
  | hamCodeword (cw : Codeword)
  /-- RESET (70_reset_and_hazards.md R240). -/
  | reset
  /-- START op name addr (43_session.md R175). -/
  | start (op : Byte) (name : Bytes) (addr : PeerAddr)
  /-- RX of a datagram of any kind (43_session.md R178). -/
  | rx (datagram : Bytes)
  /-- TIMEOUT (43_session.md R195). -/
  | timeout
  /-- FAULT (43_session.md R196). -/
  | fault
deriving DecidableEq, Repr

/-- Where an input arrives, which says how its bytes are read (assumption log 1). -/
inductive Port where
  /-- A line of the event script (30_encoding.md R83): a host event. -/
  | script
  /-- A datagram received by the transport (30_encoding.md R80): a host event RX. -/
  | transport
  /-- A packet the block is to send (30_encoding.md R75, R77, R78): the table's rows "sent" (assumption log 5). -/
  | sender
  /-- Four wire bytes for the codec (20_memory.md R53): the table's row HAM_CODEWORD (assumption log 6). -/
  | codec
deriving DecidableEq, Repr

/-- One input: the port it arrives at and its bytes in transmission order. -/
structure Item where
  port : Port
  bytes : Bytes
deriving DecidableEq, Repr

/-- Why an input's bytes are no instruction. -/
inductive DecodeError where
  /-- A script line that is none of the five events of 30_encoding.md R83 (an output line, a comment, anything else). -/
  | notAnEvent
  /-- What follows "RX" is not `(" " hexbyte)*`. -/
  | badHexBytes
  /-- What follows "START op=" is not `("1"|"2") " name=" string (" addr=none")?`, or the name holds 0x00. -/
  | badStartLine
  /-- A packet to send whose first two bytes are not `00 01`, `00 02`, `00 04` or `00 06` (30_encoding.md R81). -/
  | notSentOpcode
  /-- A request to send that is not `name 00 mode 00` after its opcode (30_encoding.md R75). -/
  | badRequest
  /-- An ACK or NACK to send that is not exactly 4 bytes (30_encoding.md R77, R78). -/
  | badAckLength
  /-- A codeword that is not exactly 4 wire bytes (20_memory.md R53). -/
  | badCodewordLength
deriving DecidableEq, Repr

end Sys2Proof
end

