-- ==== Sys2Proof/WellFormed.lean ====
section
/-! DEFINITION. Which instructions the encodings of the spec can hold. -/

namespace Sys2Proof

/-- A START whose operands the request format can hold (43_session.md R177): `op` is 1 or 2 and `name` has no 0x00. -/
abbrev ValidStart (op : Byte) (name : Bytes) : Prop :=
  (op = 1 ∨ op = 2) ∧ (0 : Byte) ∉ name

/-- The well-formed instructions: request fields hold no 0x00 (30_encoding.md R75), RX_OTHER's opcode is neither DATA's nor
ERROR's (30_encoding.md R80), a runt has fewer than 4 bytes (43_session.md R179), START's operands are valid (R177). Every other
instruction is well formed whatever its operands. -/
abbrev Instr.WellFormed (i : Instr) : Prop :=
  match i with
  | .rrq name mode => (0 : Byte) ∉ name ∧ (0 : Byte) ∉ mode
  | .rrqErr name mode => (0 : Byte) ∉ name ∧ (0 : Byte) ∉ mode
  | .ack _ => True
  | .nack _ => True
  | .error _ _ _ _ => True
  | .data _ _ _ => True
  | .rxOther _ op _ _ => op ≠ 0x03 ∧ op ≠ 0x05
  | .runt D => D.length < 4
  | .hamCodeword _ => True
  | .reset => True
  | .start op name _ => ValidStart op name
  | .rx _ => True
  | .timeout => True
  | .fault => True

end Sys2Proof
end

