-- ==== Sys2Proof/Decode.lean ====
section
/-! DEFINITION. From an input's bytes to its instruction, and back: packets by 30_encoding.md section 2, codewords by
20_memory.md R53, events by the script grammar of 30_encoding.md R83. -/

namespace Sys2Proof

open Machine

/-! ## Text of the event script (30_encoding.md R83) -/

/-- The ASCII bytes of a word. -/
def ascii (cs : List Char) : Bytes :=
  cs.map fun c => BitVec.ofNat 8 c.toNat

/-- "RESET" -/
def kwReset : Bytes := ascii ['R', 'E', 'S', 'E', 'T']
/-- "TIMEOUT" -/
def kwTimeout : Bytes := ascii ['T', 'I', 'M', 'E', 'O', 'U', 'T']
/-- "FAULT" -/
def kwFault : Bytes := ascii ['F', 'A', 'U', 'L', 'T']
/-- "RX" -/
def kwRx : Bytes := ascii ['R', 'X']
/-- "START op=" -/
def kwStartOp : Bytes := ascii ['S', 'T', 'A', 'R', 'T', ' ', 'o', 'p', '=']
/-- " name=" and the string's opening quote -/
def kwName : Bytes := ascii [' ', 'n', 'a', 'm', 'e', '=', '"']
/-- The string's closing quote -/
def kwQuote : Bytes := ascii ['"']
/-- The string's closing quote and " addr=none" -/
def kwQuoteNone : Bytes := ascii ['"', ' ', 'a', 'd', 'd', 'r', '=', 'n', 'o', 'n', 'e']

/-- What follows a prefix, where the list has it. -/
def stripPrefix : Bytes → Bytes → Option Bytes
  | [], l => some l
  | _ :: _, [] => none
  | a :: as, b :: bs => if a = b then stripPrefix as bs else none

/-- What stands before a suffix, where the list has it. -/
def stripSuffix (suffix l : Bytes) : Option Bytes :=
  (stripPrefix suffix.reverse l.reverse).map List.reverse

/-- The value of an upper-case hexadecimal digit (00_scope.md R9; assumption log 14). -/
def hexValue (c : Byte) : Option Nat :=
  if 0x30 ≤ c.toNat ∧ c.toNat ≤ 0x39 then some (c.toNat - 0x30)
  else if 0x41 ≤ c.toNat ∧ c.toNat ≤ 0x46 then some (c.toNat - 0x37)
  else none

/-- The upper-case hexadecimal digit of a value below 16. -/
def hexDigit (n : Nat) : Byte :=
  if n < 10 then BitVec.ofNat 8 (0x30 + n) else BitVec.ofNat 8 (0x37 + n)

/-- `hexbytes := (" " hexbyte)*`, most significant digit first (30_encoding.md R83). -/
def decodeHexBytes : Bytes → Option Bytes
  | [] => some []
  | sp :: h :: l :: rest =>
    if sp = 0x20 then
      match hexValue h, hexValue l, decodeHexBytes rest with
      | some hi, some lo, some bs => some (BitVec.ofNat 8 (16 * hi + lo) :: bs)
      | _, _, _ => none
    else none
  | _ => none

/-- The text of a byte string as `hexbytes`. -/
def encodeHexBytes : Bytes → Bytes
  | [] => []
  | b :: bs => 0x20 :: hexDigit (b.toNat / 16) :: hexDigit (b.toNat % 16) :: encodeHexBytes bs

/-- The bytes between the quotes and the address operand, from what follows the opening quote: `string (" addr=none")?`. -/
def decodeNameAddr (l : Bytes) : Option (Bytes × PeerAddr) :=
  match stripSuffix kwQuoteNone l with
  | some name => some (name, .none)
  | none =>
    match stripSuffix kwQuote l with
    | some name => some (name, .bound)
    | none => none

/-- What follows "START op=": `("1"|"2") " name=" string (" addr=none")?`; the name may hold any byte but 0x00
(43_session.md R177; assumption log 14). -/
def decodeStart : Bytes → Except DecodeError Instr
  | [] => .error .badStartLine
  | d :: l =>
    match stripPrefix kwName l with
    | none => .error .badStartLine
    | some body =>
      match decodeNameAddr body with
      | none => .error .badStartLine
      | some (name, addr) =>
        if (d = 0x31 ∨ d = 0x32) ∧ (0 : Byte) ∉ name then .ok (.start (d - 0x30) name addr)
        else .error .badStartLine

/-- One event line of the script (30_encoding.md R83). DESIGN CHOICE, safe but in the case its row names (assumption log 14): the line is the event alone. R83's
grammar has a comment as a line of its own; a comment after an event, as the programs of 95_test_vectors.md write it, is not part of
the event, and a line that still holds one is refused (but for a START line whose comment ends as a name does; log 14). -/
def decodeEventLine (l : Bytes) : Except DecodeError Instr :=
  if l = kwReset then .ok .reset
  else if l = kwTimeout then .ok .timeout
  else if l = kwFault then .ok .fault
  else
    match stripPrefix kwStartOp l with
    | some body => decodeStart body
    | none =>
      match stripPrefix kwRx l with
      | some body =>
        match decodeHexBytes body with
        | some D => .ok (.rx D)
        | none => .error .badHexBytes
      | none => .error .notAnEvent

/-! ## Packets (30_encoding.md section 2) -/

/-- The classification of a received datagram by its length and by `D[1]` alone (30_encoding.md R80). It is total: "No
received byte pattern makes the block fault" (R81). -/
def decodeDatagram : Bytes → Instr
  | b0 :: b1 :: b2 :: b3 :: rest =>
    if b1 = 0x05 then .error b0 b2 b3 rest
    else if b1 = 0x03 then .data b0 (blockOf b2 b3) rest
    else .rxOther b0 b1 (blockOf b2 b3) rest
  | D => .runt D

/-- The bytes before the first 0x00 and those after it, where there is one. -/
def splitAtZero : Bytes → Option (Bytes × Bytes)
  | [] => none
  | b :: bs =>
    if b = 0 then some ([], bs)
    else
      match splitAtZero bs with
      | some (pre, post) => some (b :: pre, post)
      | none => none

/-- `name 00 mode 00` and nothing after it (30_encoding.md R75). -/
def decodeRequestFields (l : Bytes) : Option (Bytes × Bytes) :=
  match splitAtZero l with
  | some (name, rest) =>
    match splitAtZero rest with
    | some (mode, []) => some (name, mode)
    | _ => none
  | none => none

/-- A packet the block sends, by its first two bytes (30_encoding.md R74, R75, R77, R78). -/
def decodeSent : Bytes → Except DecodeError Instr
  | b0 :: b1 :: rest =>
    if b0 ≠ 0x00 then .error .notSentOpcode
    else if b1 = 0x01 then
      match decodeRequestFields rest with
      | some (name, mode) => .ok (.rrq name mode)
      | none => .error .badRequest
    else if b1 = 0x02 then
      match decodeRequestFields rest with
      | some (name, mode) => .ok (.rrqErr name mode)
      | none => .error .badRequest
    else if b1 = 0x04 then
      match rest with
      | [hi, lo] => .ok (.ack (blockOf hi lo))
      | _ => .error .badAckLength
    else if b1 = 0x06 then
      match rest with
      | [hi, lo] => .ok (.nack (blockOf hi lo))
      | _ => .error .badAckLength
    else .error .notSentOpcode
  | _ => .error .notSentOpcode

/-- One codeword from its four wire bytes (20_memory.md R53, 30_encoding.md R70): every 32-bit value is a codeword. -/
def decodeCodeword (m : WireBitMap) : Bytes → Except DecodeError Instr
  | [b0, b1, b2, b3] => .ok (.hamCodeword (assemble m b0 b1 b2 b3))
  | _ => .error .badCodewordLength

/-- The instruction of an input, by the port it arrives at. -/
def decode (p : Params) (it : Item) : Except DecodeError Instr :=
  match it.port with
  | .script => decodeEventLine it.bytes
  | .transport => .ok (decodeDatagram it.bytes)
  | .sender => decodeSent it.bytes
  | .codec => decodeCodeword p.wireBitMap it.bytes

/-! ## The encoder -/

/-- The port an instruction arrives at. -/
def Instr.port : Instr → Port
  | .rrq _ _ => .sender
  | .rrqErr _ _ => .sender
  | .ack _ => .sender
  | .nack _ => .sender
  | .error _ _ _ _ => .transport
  | .data _ _ _ => .transport
  | .rxOther _ _ _ _ => .transport
  | .runt _ => .transport
  | .hamCodeword _ => .codec
  | .reset => .script
  | .start _ _ _ => .script
  | .rx _ => .script
  | .timeout => .script
  | .fault => .script

/-- What closes the name string and gives the address operand (30_encoding.md R83). -/
def encodeAddr : PeerAddr → Bytes
  | .none => kwQuoteNone
  | .bound => kwQuote

/-- The bytes of an instruction, from the same encodings: packets (30_encoding.md R75-R80), wire bytes (20_memory.md R53),
event lines (30_encoding.md R83). -/
def encodeBytes (p : Params) : Instr → Bytes
  | .rrq name mode => [0x00, 0x01] ++ name ++ [0x00] ++ mode ++ [0x00]
  | .rrqErr name mode => [0x00, 0x02] ++ name ++ [0x00] ++ mode ++ [0x00]
  | .ack v => [0x00, 0x04, blockHi v, blockLo v]
  | .nack v => [0x00, 0x06, blockHi v, blockLo v]
  | .error b0 x y rest => [b0, 0x05, x, y] ++ rest
  | .data b0 v rest => [b0, 0x03, blockHi v, blockLo v] ++ rest
  | .rxOther b0 op v rest => [b0, op, blockHi v, blockLo v] ++ rest
  | .runt D => D
  | .hamCodeword cw => wireBytes p.wireBitMap cw
  | .reset => kwReset
  | .start op name addr => kwStartOp ++ [op + 0x30] ++ kwName ++ name ++ encodeAddr addr
  | .rx D => kwRx ++ encodeHexBytes D
  | .timeout => kwTimeout
  | .fault => kwFault

/-- The input that carries an instruction. -/
def encode (p : Params) (i : Instr) : Item :=
  { port := i.port, bytes := encodeBytes p i }

/-! ## The opcode table's words -/

/-- The bytes of `k` 16-bit words of `w`, the first word in bits 15..0, each word high byte first: the table writes byte 1
of a packet, its opcode, in bits 7..0 and byte 0 in bits 15..8 (assumption log 15). -/
def headerBytes (k w : Nat) : Bytes :=
  match k with
  | 0 => []
  | k + 1 => BitVec.ofNat 8 (w / 256) :: BitVec.ofNat 8 w :: headerBytes k (w / 65536)

/-- The input that the table's bits `w` of a row `nbits` wide stand for (assumption log 15): no bits are an empty datagram
(the row RUNT), 32 bits are a codeword, and anything else is a packet's header words with the words not given zero, handed to
the sender where the table's match is a sent row's and to the transport elsewhere. -/
def tableItem (p : Params) (nbits w : Nat) : Item :=
  if nbits = 0 then { port := .transport, bytes := [] }
  else if nbits = 32 then { port := .codec, bytes := wireBytes p.wireBitMap (BitVec.ofNat 32 w) }
  else
    { port := if w % 65536 = 1 ∨ w % 65536 = 2 ∨ w % 65536 = 4 ∨ w % 65536 = 6 then .sender else .transport
      bytes := headerBytes (max 2 ((nbits + 15) / 16)) w }

/-- The instruction the decoder reads from the table's bits. -/
def decodeTableWord (nbits w : Nat) : Option Instr :=
  match decode Params.default (tableItem Params.default nbits w) with
  | .ok i => some i
  | .error _ => none

end Sys2Proof
end

