-- ==== Sys2Proof/Machine/Deinterleaver.lean ====
section
/-! DEFINITION. The bit de-interleaver (41_deinterleave.md): its registers CARRY, CARRY_CNT and OUT (10_state.md R30) and its
operations, in both packings and both carry orders. -/

namespace Sys2Proof.Machine

/-- The de-interleaver's registers (10_state.md R30). -/
structure Deint where
  /-- `CARRY`: up to 8 bits. -/
  carry : BitVec 8
  /-- `CARRY_CNT`: the number of bits held, 0..8. -/
  carryCnt : Nat
  /-- `OUT`: the decoded output bytes. -/
  out : Bytes
deriving DecidableEq, Repr

/-- The registers cleared: DEINT_BEGIN (41_deinterleave.md R130). -/
def Deint.clear : Deint where
  carry := 0
  carryCnt := 0
  out := []

/-- `CARRY_BYTE(CARRY)` (41_deinterleave.md R134): `c_k` is `CARRY[k]`. -/
def carryByte (order : CarryOrder) (carry : BitVec 8) : Byte :=
  match order with
  | .firstIsLsb => carry
  | .firstIsMsb => carry.reverse

/-- The three immediate bytes of a fragment, `F_0..F_23` most significant bit first (41_deinterleave.md R132). -/
def regularBytes (frag : Frag) : Bytes :=
  [frag.extractLsb' 18 8, frag.extractLsb' 10 8, frag.extractLsb' 2 8]

/-- DEINT_STEP under SEPARATE_CARRY (41_deinterleave.md R132). -/
def Deint.stepSeparate (order : CarryOrder) (d : Deint) (frag : Frag) : Deint :=
  let out := d.out ++ regularBytes frag
  let carry := setBit (setBit d.carry d.carryCnt (frag.getLsbD 1)) (d.carryCnt + 1) (frag.getLsbD 0)
  let cnt := d.carryCnt + 2
  if cnt = 8 then
    { carry := 0, carryCnt := 0, out := out ++ [carryByte order carry] }
  else
    { carry := carry, carryCnt := cnt, out := out }

/-- The loop `while nb >= 8: OUT <- OUT ‖ [acc[nb-1 : nb-8]]; nb <- nb - 8` of 41_deinterleave.md R136, `k` times: the bytes
it appends. -/
def streamBytes (acc nb : Nat) : Nat → Bytes
  | 0 => []
  | k + 1 => BitVec.ofNat 8 (acc >>> (nb - 8)) :: streamBytes acc (nb - 8) k

/-- DEINT_STEP under STREAM (41_deinterleave.md R136). -/
def Deint.stepStream (d : Deint) (frag : Frag) : Deint :=
  let acc := d.carry.toNat <<< 26 ||| frag.toNat
  let nb := d.carryCnt + 26
  { carry := BitVec.ofNat 8 (acc % 2 ^ (nb % 8))
    carryCnt := nb % 8
    out := d.out ++ streamBytes acc nb (nb / 8) }

/-- DEINT_STEP(frag) (41_deinterleave.md R131). -/
def Deint.step (p : Params) (d : Deint) (frag : Frag) : Deint :=
  match p.packing with
  | .separateCarry => d.stepSeparate p.carryOrder frag
  | .stream => d.stepStream frag

/-- DEINT_END (41_deinterleave.md R135): the decoded bytes. The carry still held is discarded; the packet decoder, whose
registers these are, leaves them cleared (10_state.md R30, "discarded at its end"). -/
def Deint.finish (d : Deint) : Bytes :=
  d.out

/-- The output of a whole sequence of fragments: DEINT_BEGIN, a DEINT_STEP for each, DEINT_END (41_deinterleave.md). -/
def deinterleave (p : Params) (frags : List Frag) : Bytes :=
  (frags.foldl (fun d frag => d.step p frag) Deint.clear).finish

end Sys2Proof.Machine
end

