-- ==== Sys2Proof/Machine/Flags.lean ====
section
/-! DEFINITION. The Hamming word codec: its six checks and syndrome (40_codec.md section 1), EXTRACT and HAM_DECODE (section
2). The codec is a pure function of the word and of `SYNDROME_ZERO_POLICY` (10_state.md R31). -/

namespace Sys2Proof.Machine

/-- `status` of HAM_DECODE (40_codec.md R105). -/
inductive CodecStatus where
  | clean | corrected | uncorrectable
deriving DecidableEq, Repr

/-- The number of a status: `CLEAN` 0, `CORRECTED` 1, `UNCORRECTABLE` 2 (40_codec.md R105, 92_eei_decisions.md D35). -/
def CodecStatus.code : CodecStatus → Nat
  | .clean => 0
  | .corrected => 1
  | .uncorrectable => 2

/-- The outputs of HAM_DECODE (40_codec.md R105). -/
structure CodecResult where
  status : CodecStatus
  /-- `frag`, which R105 writes `-` for an uncorrectable word (assumption log 17). -/
  frag : Option Frag
  /-- `c[5:0]`. -/
  checks : BitVec 6
  /-- `s[4:0]`. -/
  syndrome : BitVec 5
  /-- The corrected position 0..31, or none. -/
  pos : Option Nat
deriving DecidableEq, Repr

/-- `((p + 1) >> i) and 1 = 1` (40_codec.md R100). -/
def covers (i p : Nat) : Bool :=
  ((p + 1) >>> i) % 2 == 1

/-- `COV(i)`: the positions localizing check `i` covers (40_codec.md R100). -/
def cov (i : Nat) : List Nat :=
  (List.range 31).filter (covers i)

/-- The xor of a word's bits over a list of positions. -/
def parityOver (w : Codeword) (ps : List Nat) : Bool :=
  ps.foldr (fun p acc => w.getLsbD p ^^ acc) false

/-- `c[i]`: localizing check `i` for `i = 0..4` (40_codec.md R102), the overall check over all 32 positions for `i = 5`
(R101); true is "fail". -/
def check (w : Codeword) (i : Nat) : Bool :=
  if i = 5 then parityOver w (List.range 32) else parityOver w (cov i)

/-- `c[5:0]`, bit `i` being `c[i]` (40_codec.md R102). -/
def checks (w : Codeword) : BitVec 6 :=
  BitVec.ofNat 6 (bitsToNat ((List.range 6).map (check w)))

/-- `s = c[0]*1 + c[1]*2 + c[2]*4 + c[3]*8 + c[4]*16` (40_codec.md R103). -/
def syndrome (w : Codeword) : BitVec 5 :=
  BitVec.ofNat 5 (bitsToNat ((List.range 5).map (check w)))

/-- `DP`: the data positions in ascending order (30_encoding.md R72). -/
def dataPositions : List Nat :=
  [2, 4, 5, 6, 8, 9, 10, 11, 12, 13, 14, 16, 17, 18, 19, 20, 21, 22, 23, 24, 25, 26, 27, 28, 29, 30]

/-- `EXTRACT(w)`: `FRAG[u] = w[DP[u]]` (40_codec.md R108). -/
def extract (w : Codeword) : Frag :=
  BitVec.ofNat 26 (bitsToNat (dataPositions.map fun q => w.getLsbD q))

/-- The logical bit `F_t = FRAG[25 - t]` of a fragment, `F_0` first (40_codec.md R108). -/
def logicalBit (frag : Frag) (t : Nat) : Bool :=
  frag.getLsbD (25 - t)

/-- A valid codeword: all six checks pass (40_codec.md R104). -/
abbrev ValidCodeword (w : Codeword) : Prop :=
  checks w = 0

/-- The word with position `q` flipped (40_codec.md R107). -/
def flip (w : Codeword) (q : Nat) : Codeword :=
  w ^^^ (1#32 <<< q)

/-- HAM_DECODE (40_codec.md R105-R111). The re-check of R111 is kept as the pseudocode has it. -/
def hamDecode (p : Params) (cw : Codeword) : CodecResult :=
  let c := checks cw
  let s := syndrome cw
  if s = 0 ∧ check cw 5 = false then
    { status := .clean, frag := some (extract cw), checks := c, syndrome := s, pos := none }
  else if s ≠ 0 ∧ check cw 5 = true then
    let cw2 := flip cw (s.toNat - 1)
    if checks cw2 = 0 then
      { status := .corrected, frag := some (extract cw2), checks := c, syndrome := s, pos := some (s.toNat - 1) }
    else
      { status := .uncorrectable, frag := none, checks := c, syndrome := s, pos := none }
  else if s = 0 ∧ check cw 5 = true then
    match p.syndromeZero with
    | .correctParity => { status := .corrected, frag := some (extract cw), checks := c, syndrome := s, pos := some 31 }
    | .reject => { status := .uncorrectable, frag := none, checks := c, syndrome := s, pos := none }
  else
    { status := .uncorrectable, frag := none, checks := c, syndrome := s, pos := none }

end Sys2Proof.Machine
end

