-- ==== Sys2Proof/Machine/Operands.lean ====
section
/-! DEFINITION. The byte fields of packets (30_encoding.md section 2, 20_memory.md section 2): the block number and codewords
of a received datagram, the message of an error packet, and the packets the block sends. -/

namespace Sys2Proof.Machine

/-- The block number at offsets 2 and 3 of a packet (20_memory.md R52, 43_session.md R187). -/
def headerBlock (B : Bytes) : BlockNo :=
  blockOf (B.getD 2 0) (B.getD 3 0)

/-- The codewords of the bytes from offset 4 on: four bytes each, the last 1 to 3 bytes ignored (20_memory.md R56). -/
def codewordsOf (m : WireBitMap) : Bytes → List Codeword
  | b0 :: b1 :: b2 :: b3 :: rest => assemble m b0 b1 b2 b3 :: codewordsOf m rest
  | _ => []

/-- The message of an error packet: the bytes from offset 4 up to the first 0x00, or to the end (30_encoding.md R79,
43_session.md R180). -/
def errorMessage (D : Bytes) : Bytes :=
  (D.drop 4).takeWhile (fun b => b ≠ 0)

/-- `BUILD_RRQ(op, name)` with a given mode (43_session.md R176, 30_encoding.md R75). -/
def requestBytes (op : Byte) (name mode : Bytes) : Bytes :=
  [0x00, op] ++ name ++ [0x00] ++ mode ++ [0x00]

/-- The ACK packet for block `v` (30_encoding.md R77). -/
def ackBytes (v : BlockNo) : Bytes :=
  [0x00, 0x04, blockHi v, blockLo v]

/-- The NACK packet carrying block number `v` (30_encoding.md R78). -/
def nackBytes (v : BlockNo) : Bytes :=
  [0x00, 0x06, blockHi v, blockLo v]

end Sys2Proof.Machine
end

