-- ==== Sys2Proof/Machine/Packet.lean ====
section
/-! DEFINITION. The packet decoder and the padding trim (42_packet_decode.md). -/

namespace Sys2Proof.Machine

/-- The result of PACKET_DECODE (42_packet_decode.md R150). -/
inductive PacketResult where
  /-- `PAYLOAD(H, OUT, L)`: the header, the decoded data, the trimmed length. -/
  | payload (header out : Bytes) (len : Nat)
  /-- `FAIL(k)`: `k` is the index of the first uncorrectable codeword. -/
  | fail (k : Nat)
deriving DecidableEq, Repr

/-- `TZ(OUT)`: the number of trailing zero bytes (42_packet_decode.md R161). -/
def trailingZeros (out : Bytes) : Nat :=
  (out.reverse.takeWhile (fun b => b = 0)).length

/-- `TRIM(OUT)` (42_packet_decode.md R162). -/
def trim (p : Params) (out : Bytes) : Nat :=
  if trailingZeros out = p.trimThreshold then out.length - trailingZeros out else out.length

/-- The loop of PACKET_DECODE over the codewords from number `k` on (42_packet_decode.md R151): the registers after the last
one, or the number of the first uncorrectable one (R153). -/
def decodeCodewords (p : Params) (k : Nat) (d : Deint) : List Codeword → Except Nat Deint
  | [] => .ok d
  | cw :: cws =>
    match (hamDecode p cw).frag with
    | some frag => decodeCodewords p (k + 1) (d.step p frag) cws
    | none => .error k

/-- PACKET_DECODE(D) (42_packet_decode.md R151). `d` is what the de-interleaver's registers hold before it; DEINT_BEGIN
clears them, so they are read by nothing, and they are discarded at its end (10_state.md R30). The second component is what they
hold after it. -/
def packetDecode (p : Params) (_d : Deint) (D : Bytes) : PacketResult × Deint :=
  match decodeCodewords p 0 Deint.clear (codewordsOf p.wireBitMap (D.drop 4)) with
  | .error k => (.fail k, Deint.clear)
  | .ok d => (.payload (D.take 4) d.finish (trim p d.finish), Deint.clear)

end Sys2Proof.Machine
end

