-- ==== Sys2Proof/Machine/State.lean ====
section
/-! DEFINITION. The machine's state (10_state.md), its outputs, the reasons a step can stop, and the state after reset. -/

namespace Sys2Proof.Machine

/-- The values of `STATE` (10_state.md R21). -/
inductive Session where
  | idle | requestSent | awaitingBlock | acknowledging | nacking | finishing | done | error
deriving DecidableEq, Repr

/-- The numeric encoding of `STATE` (10_state.md R21). -/
def Session.code : Session → BitVec 3
  | .idle => 0
  | .requestSent => 1
  | .awaitingBlock => 2
  | .acknowledging => 3
  | .nacking => 4
  | .finishing => 5
  | .done => 6
  | .error => 7

/-- The condition codes (60_exceptions.md R212), `NONE` among them. -/
inductive Condition where
  | none | timeout | uncorrectable | mismatch | serverError | noHost | runt | transportFault | retryExhausted
deriving DecidableEq, Repr

/-- The number of a condition (60_exceptions.md R212). -/
def Condition.code : Condition → Nat
  | .none => 0
  | .timeout => 1
  | .uncorrectable => 2
  | .mismatch => 3
  | .serverError => 4
  | .noHost => 5
  | .runt => 6
  | .transportFault => 7
  | .retryExhausted => 8

/-- `REPORT(kind, msg)` (10_state.md R41, 30_encoding.md R83). -/
inductive Report where
  | done
  /-- `REPORT(Error, code)`, with the server's message where there is one (assumption log 12). -/
  | error (code : Condition) (msg : Option Bytes)
  | log (code : Condition)
deriving DecidableEq, Repr

/-- What a step emits: the outputs of 10_state.md R41, and the outputs of HAM_DECODE where a codeword is run alone
(assumption log 6). -/
inductive Output where
  | tx (B : Bytes)
  | sinkWrite (B : Bytes)
  | sinkClose
  | report (r : Report)
  | codec (r : CodecResult)
deriving DecidableEq, Repr

/-- Faults: there are none. "No received byte pattern makes the block fault" (30_encoding.md R81); 93_implementation_defined.md
says of the word `fault`: "not used, since the block never faults". -/
inductive Fault
deriving DecidableEq, Repr

/-- Why a step is refused. -/
inductive Refusal where
  /-- Raised by exec's arm of an instruction that has no meaning yet. Safe. No arm raises it. -/
  | notModelled (mnemonic : String)
  /-- Raised by START with an `op` that is not 1 or 2 or a `name` that holds 0x00: "A model refuses it: no step, and a refusal
  mark on the run" (43_session.md R177). Safe. -/
  | invalidStart
  /-- Raised by an event met in a transient STATE: "no event is ever taken in them" (43_session.md R172). No run reaches such
  a state. Safe (assumption log 9). -/
  | eventInTransientState
  /-- Raised by a step whose input is no instruction of the spec's encodings. Safe (assumption log 14). -/
  | undecodable (e : DecodeError)
deriving DecidableEq, Repr

/-- Everything the spec gives the machine (10_state.md), and the model's own record of inputs and outputs. -/
structure State where
  /-- The configuration (00_scope.md R6): a parameter of the step, carried here; no step changes it (assumption log 3). -/
  cfg : Params
  /-- `STATE` (10_state.md R21). -/
  state : Session
  /-- `EXPECTED[15:0]` (10_state.md R22). -/
  expected : BlockNo
  /-- `NACK_CACHE[15:0]` (10_state.md R23). -/
  nackCache : BlockNo
  /-- `NACK_VALID` (10_state.md R23). -/
  nackValid : Bool
  /-- `PEND_VALID` (10_state.md R24). -/
  pendValid : Bool
  /-- `PEND_DATA` (10_state.md R24). -/
  pendData : Bytes
  /-- `PEND_LEN` (10_state.md R24). -/
  pendLen : Nat
  /-- `TERMINAL` (10_state.md R25). -/
  terminal : Bool
  /-- `LAST_TX` (10_state.md R26). -/
  lastTx : Bytes
  /-- `LAST_TX_VALID` (10_state.md R26). -/
  lastTxValid : Bool
  /-- `SINK_OPEN` (10_state.md R27). -/
  sinkOpen : Bool
  /-- `RESENDS` (10_state.md R28). -/
  resends : Nat
  /-- `ERR_KIND` (10_state.md R29). -/
  errKind : Condition
  /-- `ERR_MSG` (10_state.md R29). -/
  errMsg : Bytes
  /-- `CARRY`, `CARRY_CNT` and `OUT` (10_state.md R30; assumption log 18). -/
  deint : Deint
  /-- The model's own: inputs delivered and not yet taken, oldest first (assumption log 1). -/
  inbox : List Item
  /-- The model's own: outputs emitted, oldest first (assumption log 7). -/
  outbox : List Output
  /-- The model's own: the values STATE was written with, oldest first (43_session.md R172; assumption log 7). -/
  stateTrace : List Session
deriving DecidableEq, Repr

/-- The state after RESET of an instance with parameters `p` (10_state.md R34). -/
def State.resetWith (p : Params) : State where
  cfg := p
  state := .idle
  expected := p.initialExpected
  nackCache := 0x0000
  nackValid := false
  pendValid := false
  pendData := List.replicate p.fullDataBytes 0x00
  pendLen := 0
  terminal := false
  lastTx := []
  lastTxValid := false
  sinkOpen := false
  resends := 0
  errKind := .none
  errMsg := []
  deint := Deint.clear
  inbox := []
  outbox := []
  stateTrace := []

/-- The machine right after reset: the values of 10_state.md R34, with the default parameters (00_scope.md R6). -/
def State.reset : State :=
  State.resetWith Params.default

end Sys2Proof.Machine
end

