-- ==== Sys2Proof/Machine/Ops.lean ====
section
/-! DEFINITION. The named operations over the session registers (00_scope.md R10, 43_session.md), and the entry into `Error`
that every fatal condition with an open sink shares. -/

namespace Sys2Proof.Machine

/-! ## Primitives (00_scope.md R10) -/

/-- An output, after those emitted before it (20_memory.md R60). -/
def State.emit (s : State) (o : Output) : State :=
  { s with outbox := s.outbox ++ [o] }

/-- `state <- t` (00_scope.md R10). -/
def State.goto (s : State) (t : Session) : State :=
  { s with state := t, stateTrace := s.stateTrace ++ [t] }

/-- `TX(B); LAST_TX <- B` (10_state.md R26; 43_session.md R186, R188, R190, R193; assumption log 23). -/
def State.transmit (s : State) (B : Bytes) : State :=
  { s.emit (.tx B) with lastTx := B }

/-- `TX(B); LAST_TX <- B; LAST_TX_VALID <- 1`: how a request is sent (43_session.md R175). -/
def State.transmitRequest (s : State) (B : Bytes) : State :=
  { s.transmit B with lastTxValid := true }

/-- `SINK_CLOSE(); SINK_OPEN <- 0` (10_state.md R27). -/
def State.closeSink (s : State) : State :=
  { s.emit .sinkClose with sinkOpen := false }

/-- `REPORT(kind, msg)` (10_state.md R41). -/
def State.report (s : State) (r : Report) : State :=
  s.emit (.report r)

/-! ## The deferred block writer (43_session.md section 6) -/

/-- FLUSH_FULL (43_session.md R191). -/
def State.flushFull (s : State) : State :=
  if s.pendValid then
    { s.emit (.sinkWrite (s.pendData.take s.cfg.fullDataBytes)) with pendValid := false }
  else s

/-- Holding a payload: `PEND_DATA`, `PEND_LEN` and `PEND_VALID` (43_session.md R192). -/
def State.hold (s : State) (pendData : Bytes) (len : Nat) : State :=
  { s with pendData := pendData, pendLen := len, pendValid := true }

/-- `PEND_DATA[0 .. |OUT|) <- OUT` (43_session.md R193): the bytes after those keep their value
(assumption log 22). -/
def overwrite (old new : Bytes) : Bytes :=
  new ++ old.drop new.length

/-- FLUSH_FINAL (43_session.md R194). -/
def State.flushFinal (s : State) : State :=
  { s.emit (.sinkWrite (s.pendData.take s.pendLen)) with pendValid := false }

/-! ## Fatal conditions (60_exceptions.md R211, R223) -/

/-- The entry into `Error` from `AwaitingBlock` (43_session.md R180, R197): the pending block is dropped, the condition is
recorded, with the server's message where there is one, the sink is closed, the condition is reported. Nothing is saved and
nothing returns (60_exceptions.md R223, R224): only RESET leaves `Error`. -/
def State.enterError (s : State) (code : Condition) (msg : Option Bytes) : State :=
  (({ s with pendValid := false, errKind := code, errMsg := msg.getD s.errMsg }.closeSink).report (.error code msg)).goto .error

/-- ERROR_PACKET (43_session.md R180). -/
def State.errorPacket (s : State) (D : Bytes) : State :=
  s.enterError .serverError (some (errorMessage D))

/-- RETRY_EXHAUSTED (43_session.md R197). -/
def State.retryExhausted (s : State) : State :=
  s.enterError .retryExhausted none

/-- START without an address (43_session.md R175, 60_exceptions.md R216): the sink was never opened, so it is not closed.
`SINK_OPEN` and `LAST_TX_VALID` are 0 after it (10_state.md R34; assumption log 11). -/
def State.noHost (s : State) : State :=
  (({ s with sinkOpen := false, lastTxValid := false, errKind := .noHost }).report (.error .noHost none)).goto .error

/-! ## Requests and resends -/

/-- What START writes before it tests the address (43_session.md R175). -/
def State.beginTransfer (s : State) : State :=
  { s with
    expected := s.cfg.initialExpected, nackCache := 0, nackValid := false, pendValid := false, pendLen := 0,
    terminal := false, resends := 0, errKind := .none, errMsg := [] }

/-- The rest of START with an address: open the sink, send the request, wait (43_session.md R175). -/
def State.sendRequest (s : State) (op : Byte) (name : Bytes) : State :=
  ((({ s with sinkOpen := true }).goto .requestSent).transmitRequest (requestBytes op name s.cfg.mode)).goto .awaitingBlock

/-- The TIMEOUT step (43_session.md R195): resend `LAST_TX` and count it, unless the bound is reached. -/
def State.timeoutStep (s : State) : State :=
  if s.cfg.maxResends.reached s.resends then s.retryExhausted
  else { s.emit (.tx s.lastTx) with resends := s.resends + 1 }

/-! ## The data path of RX (43_session.md sections 3-6) -/

/-- The NACK cache capture (43_session.md R184). -/
def State.captureNack (s : State) (D : Bytes) : State :=
  if s.nackValid then s else { s with nackCache := headerBlock D, nackValid := true }

/-- NACK() (43_session.md R186). -/
def State.sendNack (s : State) : State :=
  ((s.goto .nacking).transmit (nackBytes s.nackCache)).goto .awaitingBlock

/-- DUP_ACK() (43_session.md R188). -/
def State.dupAck (s : State) : State :=
  ((s.goto .acknowledging).transmit (ackBytes (s.expected - 1))).goto .awaitingBlock

/-- `TX(ACK EXPECTED); EXPECTED <- (EXPECTED + 1) mod 2^16; NACK_VALID <- 0` (43_session.md R190, R193, R185). -/
def State.ackAndAdvance (s : State) : State :=
  { s.transmit (ackBytes s.expected) with expected := s.expected + 1, nackValid := false }

/-- ACCEPT_FULL(OUT, L) (43_session.md R190). -/
def State.acceptFull (s : State) (out : Bytes) (len : Nat) : State :=
  ((((s.goto .acknowledging).flushFull).hold out len).ackAndAdvance).goto .awaitingBlock

/-- Flush the block before, hold the final block, flush it at its trimmed length, set TERMINAL (43_session.md R193). -/
def State.writeTerminal (s : State) (out : Bytes) (len : Nat) : State :=
  let t := s.flushFull
  { (t.hold (overwrite t.pendData out) len).flushFinal with terminal := true }

/-- ACCEPT_TERMINAL(OUT, L) (43_session.md R193). -/
def State.acceptTerminal (s : State) (out : Bytes) (len : Nat) : State :=
  ((((((s.goto .finishing).writeTerminal out len).ackAndAdvance).closeSink).report .done)).goto .done

/-- What RX does with the result of PACKET_DECODE (43_session.md R178): NACK, duplicate ACK, or acceptance. -/
def State.handleResult (s : State) (r : PacketResult) : State :=
  match r with
  | .fail _ => s.sendNack
  | .payload header out len =>
    if headerBlock header ≠ s.expected then s.dupAck
    else if len = s.cfg.fullDataBytes then s.acceptFull out len
    else s.acceptTerminal out len

/-- RX from the NACK cache capture on (43_session.md R178): capture, PACKET_DECODE, and its result. -/
def State.dataPath (s : State) (D : Bytes) : State :=
  let t := s.captureNack D
  let r := packetDecode t.cfg t.deint D
  { t with deint := r.2 }.handleResult r.1

/-- The transport's receive buffer: at most `MAX_DGRAM` bytes of a datagram (10_state.md R42, 20_memory.md R51; assumption
log 8). -/
def State.received (s : State) (D : Bytes) : Bytes :=
  D.take s.cfg.maxDgram

/-- `RESENDS <- 0` (43_session.md R181). -/
def State.clearResends (s : State) : State :=
  { s with resends := 0 }

/-! ## Dispatch on STATE (43_session.md R170) -/

/-- An event that only `AwaitingBlock` takes: elsewhere it is ignored (43_session.md R170, R171); in a transient STATE "no
event is ever taken" (R172). -/
def State.whenAwaiting (s : State) (f : State → State) : Host.Outcome State Fault Refusal :=
  match s.state with
  | .awaitingBlock => .next (f s)
  | .idle => .next s
  | .done => .next s
  | .error => .next s
  | .requestSent => .refused .eventInTransientState
  | .acknowledging => .refused .eventInTransientState
  | .nacking => .refused .eventInTransientState
  | .finishing => .refused .eventInTransientState

/-- An event that only `Idle` takes (43_session.md R170-R172). -/
def State.whenIdle (s : State) (f : State → State) : Host.Outcome State Fault Refusal :=
  match s.state with
  | .idle => .next (f s)
  | .awaitingBlock => .next s
  | .done => .next s
  | .error => .next s
  | .requestSent => .refused .eventInTransientState
  | .acknowledging => .refused .eventInTransientState
  | .nacking => .refused .eventInTransientState
  | .finishing => .refused .eventInTransientState

end Sys2Proof.Machine
end

