-- ==== Sys2Proof/Machine/Codec.lean ====
section
/-! DEFINITION. The codeword row: HAM_DECODE of one codeword (40_codec.md R105). -/

namespace Sys2Proof.Machine

/-- HAM_CODEWORD: the outputs of HAM_DECODE; "State written: none" (40_codec.md R105; assumption log 6). -/
def execHamCodeword (cw : Codeword) (s : State) : Host.Outcome State Fault Refusal :=
  .next (s.emit (.codec (hamDecode s.cfg cw)))

end Sys2Proof.Machine
end

