-- ==== Sys2Proof/Machine/Events.lean ====
section
/-! DEFINITION. The host events RESET, START, TIMEOUT and FAULT (70_reset_and_hazards.md section 1, 43_session.md sections 2
and 7). -/

namespace Sys2Proof.Machine

/-- RESET, in every STATE (70_reset_and_hazards.md R240): every register at its reset value (10_state.md R34), the parameters
as they are, no output. Inputs not yet taken and the model's record of what was emitted stay (assumption log 7). -/
def execReset (s : State) : Host.Outcome State Fault Refusal :=
  .next
    { State.resetWith s.cfg with
      inbox := s.inbox, outbox := s.outbox, stateTrace := s.stateTrace ++ [.idle] }

/-- START (43_session.md R175); its operands are tested first and in every STATE (R177; assumption log 10). -/
def execStart (op : Byte) (name : Bytes) (addr : PeerAddr) (s : State) : Host.Outcome State Fault Refusal :=
  if ValidStart op name then
    s.whenIdle fun s =>
      match addr with
      | .none => s.beginTransfer.noHost
      | .bound => s.beginTransfer.sendRequest op name
  else .refused .invalidStart

/-- TIMEOUT (43_session.md R195). -/
def execTimeout (s : State) : Host.Outcome State Fault Refusal :=
  s.whenAwaiting fun s => s.timeoutStep

/-- FAULT (43_session.md R196). -/
def execFault (s : State) : Host.Outcome State Fault Refusal :=
  s.whenAwaiting fun s => (s.report (.log .transportFault)).timeoutStep

end Sys2Proof.Machine
end

