-- ==== Sys2Proof/Machine/Receive.lean ====
section
/-! DEFINITION. Receiving a datagram (43_session.md section 3): the event RX, and the datagrams that 30_encoding.md R80 tells
apart (assumption log 16). -/

namespace Sys2Proof.Machine

/-- RX(D) in `AwaitingBlock` (43_session.md R178), in the order of 60_exceptions.md R220. -/
def State.rxStep (s : State) (D : Bytes) : State :=
  let D := s.received D
  if D.length < 4 then s
  else if D.getD 1 0 = 0x05 then s.clearResends.errorPacket D
  else s.clearResends.dataPath D

/-- RX (43_session.md R178). -/
def execRx (D : Bytes) (s : State) : Host.Outcome State Fault Refusal :=
  s.whenAwaiting fun s => s.rxStep D

/-- ERROR received (43_session.md R180, R181). -/
def execError (b0 x y : Byte) (rest : Bytes) (s : State) : Host.Outcome State Fault Refusal :=
  s.whenAwaiting fun s => s.clearResends.errorPacket (s.received ([b0, 0x05, x, y] ++ rest))

/-- DATA received (43_session.md R178, R181). -/
def execData (b0 : Byte) (block : BlockNo) (rest : Bytes) (s : State) : Host.Outcome State Fault Refusal :=
  s.whenAwaiting fun s => s.clearResends.dataPath (s.received ([b0, 0x03, blockHi block, blockLo block] ++ rest))

/-- Any other datagram of 4 bytes or more, decoded as DATA is (30_encoding.md R80, 43_session.md R178). -/
def execRxOther (b0 op : Byte) (block : BlockNo) (rest : Bytes) (s : State) : Host.Outcome State Fault Refusal :=
  s.whenAwaiting fun s => s.clearResends.dataPath (s.received ([b0, op, blockHi block, blockLo block] ++ rest))

/-- RUNT received: discarded, no output, no register changes (43_session.md R179). -/
def execRunt (_D : Bytes) (s : State) : Host.Outcome State Fault Refusal :=
  s.whenAwaiting fun s => s

end Sys2Proof.Machine
end

