-- ==== Sys2Proof/Machine/Transmit.lean ====
section
/-! DEFINITION. The packets the block sends (30_encoding.md R75, R77, R78), run alone (assumption log 5): each hands its
datagram to the transport, which is all that `TX(B)` does (00_scope.md R10). No register is read or written: "No input can read or
write the registers ... except through the events" (10_state.md R32). What an event does around the same datagram, `LAST_TX <- B`
and the transitions of STATE among it, is in that event's own rule. -/

namespace Sys2Proof.Machine

/-- RRQ: `BUILD_RRQ(1, name)` is sent (43_session.md R176). -/
def execRrq (name mode : Bytes) (s : State) : Host.Outcome State Fault Refusal :=
  .next (s.emit (.tx (requestBytes 0x01 name mode)))

/-- RRQ_ERR: `BUILD_RRQ(2, name)` is sent (43_session.md R176). -/
def execRrqErr (name mode : Bytes) (s : State) : Host.Outcome State Fault Refusal :=
  .next (s.emit (.tx (requestBytes 0x02 name mode)))

/-- ACK: `TX([00, 04, v[15:8], v[7:0]])` (30_encoding.md R77, 43_session.md R190). -/
def execAck (block : BlockNo) (s : State) : Host.Outcome State Fault Refusal :=
  .next (s.emit (.tx (ackBytes block)))

/-- NACK: `TX([00, 06, hi, lo])` (30_encoding.md R78, 43_session.md R186). -/
def execNack (block : BlockNo) (s : State) : Host.Outcome State Fault Refusal :=
  .next (s.emit (.tx (nackBytes block)))

end Sys2Proof.Machine
end

