-- ==== Sys2Proof/Machine/Dispatch.lean ====
section
/-! DEFINITION. One arm per instruction. -/

namespace Sys2Proof.Machine

def exec (i : Instr) (s : State) : Host.Outcome State Fault Refusal :=
  match i with
  | .rrq name mode => Sys2Proof.Machine.execRrq name mode s
  | .rrqErr name mode => Sys2Proof.Machine.execRrqErr name mode s
  | .ack block => Sys2Proof.Machine.execAck block s
  | .nack block => Sys2Proof.Machine.execNack block s
  | .error b0 x y rest => Sys2Proof.Machine.execError b0 x y rest s
  | .data b0 block rest => Sys2Proof.Machine.execData b0 block rest s
  | .rxOther b0 op block rest => Sys2Proof.Machine.execRxOther b0 op block rest s
  | .runt D => Sys2Proof.Machine.execRunt D s
  | .hamCodeword cw => Sys2Proof.Machine.execHamCodeword cw s
  | .reset => Sys2Proof.Machine.execReset s
  | .start op name addr => Sys2Proof.Machine.execStart op name addr s
  | .rx D => Sys2Proof.Machine.execRx D s
  | .timeout => Sys2Proof.Machine.execTimeout s
  | .fault => Sys2Proof.Machine.execFault s

end Sys2Proof.Machine
end

