-- ==== Sys2Proof/Machine/Step.lean ====
section
/-! DEFINITION. One step: take the oldest input, decode it, run it. -/

namespace Sys2Proof.Machine

/-- The state with its oldest input taken. -/
def State.taken (s : State) : State :=
  { s with inbox := s.inbox.tail }

/-- One step (10_state.md R20). With no input the block waits: "While waiting in `AwaitingBlock` the block does nothing
until the next event, and all state survives between events" (60_exceptions.md R231; assumption log 2). An input that decodes
to no instruction is refused. -/
def step (s : State) : Host.Outcome State Fault Refusal :=
  match s.inbox with
  | [] => .next s
  | it :: _ =>
    match decode s.cfg it with
    | .ok i => exec i s.taken
    | .error e => .refused (.undecodable e)

/-- The state with the input that the table's bits stand for delivered ahead of all others (assumption log 2, 15). -/
def State.withFetchWord (s : State) (nbits w : Nat) : State :=
  { s with inbox := tableItem s.cfg nbits w :: s.inbox }

end Sys2Proof.Machine
end

