-- ==== Sys2Proof/Machine/Encoder.lean ====
section
/-! DEFINITION. The matching encoder, which the spec derives and the block does not have: ENCODE (40_codec.md R116),
ENCODE_BLOCK (95_test_vectors.md section 2), and the pseudo-operations RX_DATA and RX_ERROR that expand with it (30_encoding.md
R84). Tests and statements use it; no step does (assumption log 21). -/

namespace Sys2Proof.Machine

/-- Bits set at listed positions, one value for each. -/
def placeBits (w : Codeword) : List (Nat × Bool) → Codeword
  | [] => w
  | (q, b) :: rest => placeBits (setBit w q b) rest

/-- The first line of ENCODE: `w[DP[u]] <- frag[u]` (40_codec.md R116). -/
def encodeData (frag : Frag) : Codeword :=
  placeBits 0 (dataPositions.zip ((List.range 26).map fun u => frag.getLsbD u))

/-- The parity bits of localizing checks 0..4: each is the xor of the other positions of its check (40_codec.md R116). -/
def encodeLocal (w : Codeword) : Codeword :=
  placeBits w ((List.range 5).map fun i => (2 ^ i - 1, parityOver w ((cov i).filter (fun q => q ≠ 2 ^ i - 1))))

/-- ENCODE(frag) (40_codec.md R116). -/
def encodeFrag (frag : Frag) : Codeword :=
  let w := encodeLocal (encodeData frag)
  setBit w 31 (parityOver w (List.range 31))

/-- Fragment `j` of a group `G` of 13 bytes, `cb` its last byte (95_test_vectors.md section 2). -/
def groupFrag (G : Bytes) (j : Nat) : Frag :=
  let cb := G.getD 12 0
  (G.getD (3 * j) 0).setWidth 26 <<< 18 ||| (G.getD (3 * j + 1) 0).setWidth 26 <<< 10 |||
    (G.getD (3 * j + 2) 0).setWidth 26 <<< 2 |||
    (if cb.getLsbD (2 * j) then 2 else 0) ||| (if cb.getLsbD (2 * j + 1) then 1 else 0)

/-- The fragments needed for `r` bytes of a group (95_test_vectors.md section 2). -/
def groupFragCount (r : Nat) : Nat :=
  if 10 ≤ r then 4 else (r + 2) / 3

/-- The fragments of one group of at most 13 bytes, padded with 0x00 (95_test_vectors.md section 2). -/
def groupFrags (g : Bytes) : List Frag :=
  let G := g ++ List.replicate (13 - g.length) 0x00
  (List.range (groupFragCount g.length)).map (groupFrag G)

/-- The fragments of a byte string, `k` groups of up to 13 bytes (95_test_vectors.md section 2). -/
def blockFrags (bytes : Bytes) : Nat → List Frag
  | 0 => []
  | k + 1 => groupFrags (bytes.take 13) ++ blockFrags (bytes.drop 13) k

/-- The DATA datagram of a list of fragments: the header, then each fragment's codeword, LE (95_test_vectors.md section 2). -/
def fragsDatagram (blk : BlockNo) (frags : List Frag) : Bytes :=
  [0x00, 0x03, blockHi blk, blockLo blk] ++ frags.flatMap fun f => wireBytes .le (encodeFrag f)

/-- ENCODE_BLOCK(blk, bytes) (95_test_vectors.md section 2). -/
def encodeBlock (blk : BlockNo) (bytes : Bytes) : Bytes :=
  fragsDatagram blk (blockFrags bytes ((bytes.length + 12) / 13))

/-- ENCODE_FILE from block `blk` on (95_test_vectors.md section 2), at most `k` full chunks of `full` bytes ahead: the
datagrams of the chunks in order, and one more block with no codewords where the last chunk's datagram has `nCw` of them. -/
def encodeFileFrom (nCw full : Nat) (blk : BlockNo) (file : Bytes) : Nat → List Bytes
  | 0 => []
  | k + 1 =>
    if file.length < full then
      if (blockFrags file ((file.length + 12) / 13)).length = nCw then
        [encodeBlock blk file, encodeBlock (blk + 1) []]
      else [encodeBlock blk file]
    else encodeBlock blk (file.take full) :: encodeFileFrom nCw full (blk + 1) (file.drop full) k

/-- ENCODE_FILE(file) (95_test_vectors.md section 2). -/
def encodeFile (p : Params) (file : Bytes) : List Bytes :=
  encodeFileFrom p.nCw p.fullDataBytes p.initialExpected file (file.length + 1)

/-- `RX_DATA blk, bytes` (30_encoding.md R84). -/
def rxData (blk : BlockNo) (bytes : Bytes) : Instr :=
  .rx (encodeBlock blk bytes)

/-- `RX_ERROR "msg"` (30_encoding.md R84). -/
def rxError (msg : Bytes) : Instr :=
  .rx ([0x00, 0x05, 0x00, 0x00] ++ msg ++ [0x00])

end Sys2Proof.Machine
end

