-- ==== Sys2Proof/Safety.lean ====
section
/-! DEFINITION. The terms in which claims about runs are written: which states are resting, which inputs are host events, what
the sink has received, which condition an RX step takes, and the invariant of the machine. -/

namespace Sys2Proof.Machine

/-- The states in which an event may be taken: "Between steps STATE holds only Idle, AwaitingBlock, Done or Error"
(10_state.md R21). -/
def Session.resting : Session → Bool
  | .idle => true
  | .awaitingBlock => true
  | .done => true
  | .error => true
  | .requestSent => false
  | .acknowledging => false
  | .nacking => false
  | .finishing => false

/-- The states in which a run has ended (43_session.md R199). -/
def Session.ended : Session → Bool
  | .done => true
  | .error => true
  | _ => false

/-- The instructions that are host events (10_state.md R40), the datagrams that RX carries among them. -/
def hostEvent : Instr → Bool
  | .rrq _ _ => false
  | .rrqErr _ _ => false
  | .ack _ => false
  | .nack _ => false
  | .hamCodeword _ => false
  | .error _ _ _ _ => true
  | .data _ _ _ => true
  | .rxOther _ _ _ _ => true
  | .runt _ => true
  | .reset => true
  | .start _ _ _ => true
  | .rx _ => true
  | .timeout => true
  | .fault => true

/-- The instructions that deliver a datagram or a timeout or a fault: the events RX, TIMEOUT and FAULT (10_state.md R40). -/
def wireEvent : Instr → Bool
  | .error _ _ _ _ => true
  | .data _ _ _ => true
  | .rxOther _ _ _ _ => true
  | .runt _ => true
  | .rx _ => true
  | .timeout => true
  | .fault => true
  | _ => false

/-- The datagram that reaches the packet decoder with an instruction (30_encoding.md R80, case 3). -/
def dataDatagram : Instr → Option Bytes
  | .data b0 v rest => some ([b0, 0x03, blockHi v, blockLo v] ++ rest)
  | .rxOther b0 op v rest => some ([b0, op, blockHi v, blockLo v] ++ rest)
  | .rx D => if D.length < 4 ∨ D.getD 1 0 = 0x05 then none else some D
  | _ => none

/-- What NACK_CACHE holds after the capture of a datagram (43_session.md R184). -/
def captured (s : State) (D : Bytes) : BlockNo :=
  if s.nackValid then s.nackCache else blockOf (D.getD 2 0) (D.getD 3 0)

/-- The write of the block held before, where one is held (43_session.md R191). -/
def heldWrite (s : State) : List Output :=
  if s.pendValid then [.sinkWrite (s.pendData.take s.cfg.fullDataBytes)] else []

/-- The bytes of the sink writes among some outputs, in order: the file (20_memory.md R63). -/
def sinkBytes : List Output → Bytes
  | [] => []
  | .sinkWrite B :: os => B ++ sinkBytes os
  | .tx _ :: os => sinkBytes os
  | .sinkClose :: os => sinkBytes os
  | .report _ :: os => sinkBytes os
  | .codec _ :: os => sinkBytes os

/-- The file as it will be once the block held is written (43_session.md R198 item 5). -/
def acceptedBytes (s : State) : Bytes :=
  sinkBytes s.outbox ++ (if s.pendValid then s.pendData.take s.cfg.fullDataBytes else [])

/-- Whether an output is a datagram sent. -/
def Output.isTx : Output → Bool
  | .tx _ => true
  | _ => false

/-- Whether an output goes to the byte sink. -/
def Output.isSink : Output → Bool
  | .sinkWrite _ => true
  | .sinkClose => true
  | _ => false

/-- The condition an RX step of the datagram takes, in the order of 60_exceptions.md R220; `none` is a match. -/
def rxCondition (s : State) (D : Bytes) : Condition :=
  if D.length < 4 then .runt
  else if D.getD 1 0 = 0x05 then .serverError
  else
    match (packetDecode s.cfg Deint.clear D).1 with
    | .fail _ => .uncorrectable
    | .payload header _ _ => if headerBlock header ≠ s.expected then .mismatch else .none

/-- The registers the pending block is made of (10_state.md R24, 20_memory.md R51). -/
abbrev State.PendingOk (s : State) : Prop :=
  s.pendData.length = s.cfg.fullDataBytes ∧ s.pendLen ≤ s.cfg.fullDataBytes ∧
    (s.pendValid = true → s.state = .awaitingBlock ∧ s.pendLen = s.cfg.fullDataBytes)

/-- What STATE says of the other registers (10_state.md R21, R25, R26, R27, R29): the sink is open, and something has been
sent, exactly while a block is awaited; TERMINAL records `Done`; ERR_KIND records `Error`, and only a server error has a
message. -/
abbrev State.SessionOk (s : State) : Prop :=
  s.state.resting = true ∧ (s.sinkOpen = true ↔ s.state = .awaitingBlock) ∧
    (s.state = .awaitingBlock → s.lastTxValid = true) ∧ (s.terminal = true ↔ s.state = .done) ∧
    (s.errKind ≠ .none ↔ s.state = .error) ∧ (s.errMsg ≠ [] → s.errKind = .serverError)

/-- In `Idle` nothing of a transfer has happened (10_state.md R34). -/
abbrev State.IdleOk (s : State) : Prop :=
  s.state = .idle →
    s.expected = s.cfg.initialExpected ∧ s.nackValid = false ∧ s.pendLen = 0 ∧ s.resends = 0 ∧ s.lastTx = [] ∧
      s.lastTxValid = false

/-- No more resends than a bounded `MAX_RESENDS` (43_session.md R195, R197). -/
abbrev State.ResendsOk (s : State) : Prop :=
  s.cfg.maxResends.allows s.resends = true

/-- The invariant: what the rules say holds between steps (10_state.md R21, R24, R27, R29, R30). -/
abbrev State.Inv (s : State) : Prop :=
  s.PendingOk ∧ s.SessionOk ∧ s.IdleOk ∧ s.ResendsOk ∧ s.deint = Deint.clear

end Sys2Proof.Machine
end

