-- ==== Sys2Proof/Certificates/Slice0/Obligations.lean ====
section
/-! DEFINITION. The statements for the provers, one definition each. A rule R<n> named in a docstring stands in the file of
spec/ given beside it; "log <n>" is the row notes/assumptions/<n>.md. -/

section

open Sys2Proof Sys2Proof.Machine

/-! ## Reset, parameters, and the invariant -/

/-- 70_reset_and_hazards.md R240: RESET, in every STATE, writes every register's reset value of 10_state.md R34 and emits nothing. That the
parameters, the inputs not yet taken and the record of outputs stay is the model's choice (log 3, log 7). -/
def Obligations.ResetWritesEveryResetValue : Prop :=
  ∀ s : State,
    exec .reset s = .next
      { cfg := s.cfg, state := .idle, expected := s.cfg.initialExpected, nackCache := 0x0000, nackValid := false
        pendValid := false, pendData := List.replicate s.cfg.fullDataBytes 0x00, pendLen := 0, terminal := false
        lastTx := [], lastTxValid := false, sinkOpen := false, resends := 0, errKind := .none, errMsg := []
        deint := { carry := 0, carryCnt := 0, out := [] }
        inbox := s.inbox, outbox := s.outbox, stateTrace := s.stateTrace ++ [.idle] }

/-- The state after reset holds the values of 10_state.md R34, whatever the parameters, with nothing delivered and nothing emitted (the last is
the model's own, log 1 and log 7); `State.reset` is that state for the default parameters. -/
def Obligations.ResetStateHoldsTheResetValues : Prop :=
  (∀ p : Params,
    State.resetWith p =
      { cfg := p, state := .idle, expected := p.initialExpected, nackCache := 0x0000, nackValid := false
        pendValid := false, pendData := List.replicate p.fullDataBytes 0x00, pendLen := 0, terminal := false
        lastTx := [], lastTxValid := false, sinkOpen := false, resends := 0, errKind := .none, errMsg := []
        deint := { carry := 0, carryCnt := 0, out := [] }, inbox := [], outbox := [], stateTrace := [] }) ∧
  State.reset = State.resetWith Params.default

/-- The invariant of the machine holds right after reset, for every value of the parameters. -/
def Obligations.ResetMeetsTheInvariant : Prop :=
  (∀ p : Params, (State.resetWith p).Inv) ∧ State.reset.Inv

/-- Every step keeps the invariant (10_state.md R21, R24, R27, R29, R30): whatever input is taken, from every state that meets it. -/
def Obligations.EveryStepKeepsTheInvariant : Prop :=
  ∀ s t : State, s.Inv → step s = .next t → t.Inv

/-- No input changes the parameters (00_scope.md R6, 10_state.md R32). -/
def Obligations.NoStepChangesTheParameters : Prop :=
  ∀ s t : State, step s = .next t → t.cfg = s.cfg

/-- A step only appends outputs, and at most one of them is a datagram (20_memory.md R60, 43_session.md R198 item 6). -/
def Obligations.StepsAppendAtMostOneDatagram : Prop :=
  ∀ s t : State, step s = .next t → ∃ os : List Output, t.outbox = s.outbox ++ os ∧ os.countP Output.isTx ≤ 1

/-- EXPECTED changes only where a block is accepted, and then by exactly one, with the ACK of that block sent and the NACK cache
cleared (43_session.md R185, R198 item 1); RESET and START set it. -/
def Obligations.ExpectedAdvancesOnlyOnAcceptance : Prop :=
  ∀ (i : Instr) (s t : State), i ≠ .reset → (∀ op name addr, i ≠ .start op name addr) → exec i s = .next t →
    t.expected = s.expected ∨
      (t.expected = s.expected + 1 ∧ t.lastTx = ackBytes s.expected ∧ t.nackValid = false ∧
        ((t.state = .awaitingBlock ∧ t.pendValid = true) ∨ (t.state = .done ∧ t.terminal = true)))

/-- `Error` and `Done` are absorbing: only RESET leaves them (60_exceptions.md R224), and it leads to `Idle`. Every other instruction leaves
every register as it is: an event is ignored (43_session.md R199), and a row that is no event only emits (log 5, log 6). -/
def Obligations.OnlyResetLeavesDoneAndError : Prop :=
  (∀ (i : Instr) (s t : State), s.state.ended = true → i ≠ .reset → exec i s = .next t →
    t = { s with outbox := t.outbox } ∧ (hostEvent i = true → t.outbox = s.outbox)) ∧
  (∀ s t : State, exec .reset s = .next t → t.state = .idle)

/-- Only the events read or write a register (10_state.md R32): a row that is no event completes in every state, leaves every register as
it is, and what it emits depends on the parameters alone. That such a row can be run at all is the model's choice (log 5, log 6). -/
def Obligations.OnlyEventsReadOrWriteRegisters : Prop :=
  ∀ (i : Instr) (p : Params), hostEvent i = false →
    ∃ os : List Output, ∀ s : State, s.cfg = p → exec i s = .next { s with outbox := s.outbox ++ os }

/-! ## Dispatch on STATE -/

/-- 43_session.md R171: an ignored event leaves every register unchanged and emits nothing. The events ignored are those of the table of R170:
datagrams, TIMEOUT and FAULT in `Idle`, `Done` and `Error`, a valid START in `AwaitingBlock`, `Done` and `Error`. -/
def Obligations.IgnoredEventsChangeNothing : Prop :=
  (∀ (i : Instr) (s : State), wireEvent i = true → s.state = .idle ∨ s.state = .done ∨ s.state = .error →
    exec i s = .next s) ∧
  (∀ (op : Byte) (name : Bytes) (addr : PeerAddr) (s : State), ValidStart op name →
    s.state = .awaitingBlock ∨ s.state = .done ∨ s.state = .error → exec (.start op name addr) s = .next s)

/-- The model's choice (log 9; 43_session.md R172, "no event is ever taken in them"): in a transient STATE, which no run reaches, an event other than
RESET is refused by name. -/
def Obligations.TransientStatesRefuseEvents : Prop :=
  ∀ s : State, s.state.resting = false →
    (∀ i : Instr, wireEvent i = true → exec i s = .refused .eventInTransientState) ∧
    (∀ (op : Byte) (name : Bytes) (addr : PeerAddr), ValidStart op name →
      exec (.start op name addr) s = .refused .eventInTransientState)

/-- START with an `op` that is not 1 or 2, or a `name` that holds 0x00, is refused (43_session.md R177); that this goes before the dispatch on
STATE is the model's choice (log 10). -/
def Obligations.InvalidStartIsRefused : Prop :=
  ∀ (op : Byte) (name : Bytes) (addr : PeerAddr) (s : State), ¬ ((op = 1 ∨ op = 2) ∧ (0 : Byte) ∉ name) →
    exec (.start op name addr) s = .refused .invalidStart

/-! ## START, TIMEOUT, FAULT -/

/-- START in `Idle` with an address: the request `BUILD_RRQ(op, name)` of 43_session.md R176 is sent, every register of R175 is written, and
the block awaits a block. -/
def Obligations.StartSendsTheRequest : Prop :=
  ∀ (op : Byte) (name : Bytes) (s : State), s.state = .idle → op = 1 ∨ op = 2 → (0 : Byte) ∉ name →
    exec (.start op name .bound) s = .next
      { s with
        state := .awaitingBlock, stateTrace := s.stateTrace ++ [.requestSent, .awaitingBlock]
        expected := s.cfg.initialExpected, nackCache := 0, nackValid := false, pendValid := false, pendLen := 0
        terminal := false, resends := 0, errKind := .none, errMsg := [], sinkOpen := true
        lastTx := [0x00, op] ++ name ++ [0x00] ++ s.cfg.mode ++ [0x00], lastTxValid := true
        outbox := s.outbox ++ [.tx ([0x00, op] ++ name ++ [0x00] ++ s.cfg.mode ++ [0x00])] }

/-- START in `Idle` without an address: reported, no datagram sent, the sink not opened (43_session.md R175, 60_exceptions.md R216). That
SINK_OPEN and LAST_TX_VALID are written 0 follows the table of 10_state.md R34 (log 11). -/
def Obligations.StartWithoutAddressIsFatal : Prop :=
  ∀ (op : Byte) (name : Bytes) (s : State), s.state = .idle → op = 1 ∨ op = 2 → (0 : Byte) ∉ name →
    exec (.start op name .none) s = .next
      { s with
        state := .error, stateTrace := s.stateTrace ++ [.error]
        expected := s.cfg.initialExpected, nackCache := 0, nackValid := false, pendValid := false, pendLen := 0
        terminal := false, resends := 0, errKind := .noHost, errMsg := [], sinkOpen := false, lastTxValid := false
        outbox := s.outbox ++ [.report (.error .noHost none)] }

/-- 43_session.md R195 and R197: TIMEOUT in `AwaitingBlock` resends LAST_TX and counts it; once a bounded MAX_RESENDS is reached it drops the
pending block, closes the sink and ends in `Error`. -/
def Obligations.TimeoutResendsOrGivesUp : Prop :=
  (∀ s : State, s.state = .awaitingBlock →
    s.cfg.maxResends = .unbounded ∨ (∃ n, s.cfg.maxResends = .atMost n ∧ s.resends < n) →
    exec .timeout s = .next { s with resends := s.resends + 1, outbox := s.outbox ++ [.tx s.lastTx] }) ∧
  (∀ (s : State) (n : Nat), s.state = .awaitingBlock → s.cfg.maxResends = .atMost n → n ≤ s.resends →
    exec .timeout s = .next
      { s with
        state := .error, stateTrace := s.stateTrace ++ [.error], pendValid := false, errKind := .retryExhausted
        sinkOpen := false, outbox := s.outbox ++ [.sinkClose, .report (.error .retryExhausted none)] })

/-- 43_session.md R196: FAULT in `AwaitingBlock` reports the transport fault, then does what TIMEOUT does. -/
def Obligations.FaultIsLoggedThenRetried : Prop :=
  (∀ s : State, s.state = .awaitingBlock →
    exec .fault s = exec .timeout { s with outbox := s.outbox ++ [.report (.log .transportFault)] }) ∧
  (∀ s : State, s.state = .awaitingBlock →
    s.cfg.maxResends = .unbounded ∨ (∃ n, s.cfg.maxResends = .atMost n ∧ s.resends < n) →
    exec .fault s = .next
      { s with
        resends := s.resends + 1, outbox := s.outbox ++ [.report (.log .transportFault), .tx s.lastTx] })

/-! ## Receiving a datagram -/

/-- 43_session.md R179: a datagram shorter than 4 bytes is discarded, with no output and no register changed. -/
def Obligations.RuntIsDiscarded : Prop :=
  ∀ (D : Bytes) (s : State), s.state = .awaitingBlock → D.length < 4 →
    exec (.runt D) s = .next s ∧ exec (.rx D) s = .next s

/-- 43_session.md R180 (and R181): an error packet, before any decoding and before the NACK cache capture, drops the pending block,
records and reports the server's message, closes the sink and ends in `Error`. -/
def Obligations.ErrorPacketEndsTheTransfer : Prop :=
  ∀ (b0 x y : Byte) (rest : Bytes) (s : State), s.state = .awaitingBlock → rest.length ≤ 4 * s.cfg.nCw →
    exec (.error b0 x y rest) s = .next
      { s with
        resends := 0, state := .error, stateTrace := s.stateTrace ++ [.error], pendValid := false
        errKind := .serverError, errMsg := rest.takeWhile (fun b => b ≠ 0), sinkOpen := false
        outbox := s.outbox ++ [.sinkClose, .report (.error .serverError (some (rest.takeWhile (fun b => b ≠ 0))))] } ∧
    exec (.rx ([b0, 0x05, x, y] ++ rest)) s = exec (.error b0 x y rest) s

/-- 43_session.md R186 (with the capture of R184, before decoding, and R181): a datagram with an uncorrectable codeword is answered with a
NACK carrying the cached block number; EXPECTED, the pending register and TERMINAL keep their values. -/
def Obligations.UncorrectableDatagramIsNacked : Prop :=
  ∀ (i : Instr) (D : Bytes) (k : Nat) (s : State), dataDatagram i = some D → s.state = .awaitingBlock →
    D.length ≤ s.cfg.maxDgram → (packetDecode s.cfg Deint.clear D).1 = .fail k →
    exec i s = .next
      { s with
        resends := 0, nackCache := captured s D, nackValid := true, deint := Deint.clear
        stateTrace := s.stateTrace ++ [.nacking, .awaitingBlock]
        lastTx := [0x00, 0x06, blockHi (captured s D), blockLo (captured s D)]
        outbox := s.outbox ++ [.tx [0x00, 0x06, blockHi (captured s D), blockLo (captured s D)]] }

/-- 43_session.md R188: a payload whose block number is not EXPECTED is discarded and answered with the ACK of
`(EXPECTED - 1) mod 2^16`; no other register changes, apart from the capture of R184 and R181. -/
def Obligations.MismatchGetsTheDuplicateAck : Prop :=
  ∀ (i : Instr) (D header out : Bytes) (len : Nat) (s : State), dataDatagram i = some D → s.state = .awaitingBlock →
    D.length ≤ s.cfg.maxDgram → (packetDecode s.cfg Deint.clear D).1 = .payload header out len →
    blockOf (D.getD 2 0) (D.getD 3 0) ≠ s.expected →
    exec i s = .next
      { s with
        resends := 0, nackCache := captured s D, nackValid := true, deint := Deint.clear
        stateTrace := s.stateTrace ++ [.acknowledging, .awaitingBlock]
        lastTx := [0x00, 0x04, blockHi (s.expected - 1), blockLo (s.expected - 1)]
        outbox := s.outbox ++ [.tx [0x00, 0x04, blockHi (s.expected - 1), blockLo (s.expected - 1)]] }

/-- 43_session.md R190 (with R191, R192, R185): a matching full payload flushes the block held before, is held, is ACKed, and EXPECTED
advances by one mod 2^16. -/
def Obligations.MatchingFullBlockIsAccepted : Prop :=
  ∀ (i : Instr) (D header out : Bytes) (s : State), dataDatagram i = some D → s.state = .awaitingBlock →
    D.length ≤ s.cfg.maxDgram →
    (packetDecode s.cfg Deint.clear D).1 = .payload header out s.cfg.fullDataBytes →
    blockOf (D.getD 2 0) (D.getD 3 0) = s.expected →
    exec i s = .next
      { s with
        resends := 0, nackCache := captured s D, nackValid := false, deint := Deint.clear
        stateTrace := s.stateTrace ++ [.acknowledging, .awaitingBlock]
        pendData := out, pendLen := s.cfg.fullDataBytes, pendValid := true
        lastTx := [0x00, 0x04, blockHi s.expected, blockLo s.expected], expected := s.expected + 1
        outbox := s.outbox ++ heldWrite s ++ [.tx [0x00, 0x04, blockHi s.expected, blockLo s.expected]] }

/-- 43_session.md R193 (with R191, R194, R185): a matching payload shorter than FULL_DATA_BYTES flushes the block held before, is written
at its trimmed length, is ACKed once; the sink is closed, `Done` is reported. -/
def Obligations.MatchingShortBlockEndsTheTransfer : Prop :=
  ∀ (i : Instr) (D header out : Bytes) (len : Nat) (s : State), dataDatagram i = some D → s.state = .awaitingBlock →
    D.length ≤ s.cfg.maxDgram → (packetDecode s.cfg Deint.clear D).1 = .payload header out len →
    blockOf (D.getD 2 0) (D.getD 3 0) = s.expected → len < s.cfg.fullDataBytes →
    exec i s = .next
      { s with
        resends := 0, nackCache := captured s D, nackValid := false, deint := Deint.clear
        state := .done, stateTrace := s.stateTrace ++ [.finishing, .done]
        pendData := out ++ s.pendData.drop out.length, pendLen := len, pendValid := false, terminal := true
        lastTx := [0x00, 0x04, blockHi s.expected, blockLo s.expected], expected := s.expected + 1, sinkOpen := false
        outbox := s.outbox ++ heldWrite s ++
          [.sinkWrite (out.take len), .tx [0x00, 0x04, blockHi s.expected, blockLo s.expected], .sinkClose,
            .report .done] }

/-- RX of a datagram is the instruction its length and its opcode byte name (30_encoding.md R80, 43_session.md R178), in every
state. -/
def Obligations.RxRunsTheInstructionOfItsDatagram : Prop :=
  ∀ (D : Bytes) (s : State), exec (.rx D) s = exec (decodeDatagram D) s

/-- The condition an RX step takes, in the order of 60_exceptions.md R220, and the path it selects: what is sent, and the STATE it ends in. -/
def Obligations.RxTakesTheFirstCondition : Prop :=
  ∀ (D : Bytes) (s t : State), s.state = .awaitingBlock → D.length ≤ s.cfg.maxDgram → exec (.rx D) s = .next t →
    (rxCondition s D = .runt → t = s) ∧
    (rxCondition s D = .serverError → t.state = .error ∧ t.errKind = .serverError ∧ t.nackCache = s.nackCache) ∧
    (rxCondition s D = .uncorrectable → t.state = .awaitingBlock ∧ t.lastTx = nackBytes (captured s D)) ∧
    (rxCondition s D = .mismatch → t.state = .awaitingBlock ∧ t.lastTx = ackBytes (s.expected - 1)) ∧
    (rxCondition s D = .none → t.lastTx = ackBytes s.expected ∧ t.expected = s.expected + 1 ∧
      (t.state = .awaitingBlock ∨ t.state = .done))

/-- The model's choice (log 8; 10_state.md R42): a datagram longer than MAX_DGRAM is received as its first MAX_DGRAM bytes, whichever
instruction it arrives as. -/
def Obligations.LongDatagramsAreCut : Prop :=
  (∀ (D : Bytes) (s : State), exec (.rx D) s = exec (.rx (D.take s.cfg.maxDgram)) s) ∧
  (∀ (b0 : Byte) (v : BlockNo) (rest : Bytes) (s : State),
    exec (.data b0 v rest) s = exec (.data b0 v (rest.take (4 * s.cfg.nCw))) s) ∧
  (∀ (b0 op : Byte) (v : BlockNo) (rest : Bytes) (s : State),
    exec (.rxOther b0 op v rest) s = exec (.rxOther b0 op v (rest.take (4 * s.cfg.nCw))) s) ∧
  (∀ (b0 x y : Byte) (rest : Bytes) (s : State),
    exec (.error b0 x y rest) s = exec (.error b0 x y (rest.take (4 * s.cfg.nCw))) s)

/-- Byte 0 of a datagram is not checked, and an opcode byte other than 05 has no effect (30_encoding.md R80, 70_reset_and_hazards.md R253). -/
def Obligations.HeaderBytesZeroAndOneAreUnchecked : Prop :=
  (∀ (b0 b0' op : Byte) (v : BlockNo) (rest : Bytes) (s : State), op ≠ 0x05 →
    exec (.rxOther b0 op v rest) s = exec (.data b0' v rest) s) ∧
  (∀ (b0 b0' x y x' y' : Byte) (rest : Bytes) (s : State),
    exec (.error b0 x y rest) s = exec (.error b0' x' y' rest) s)

/-- The last 1 to 3 bytes of a datagram, which belong to no codeword, have no effect (20_memory.md R56). -/
def Obligations.TrailingBytesAreIgnored : Prop :=
  ∀ (b0 : Byte) (v : BlockNo) (rest tail : Bytes) (s : State), rest.length % 4 = 0 → tail.length < 4 →
    exec (.data b0 v (rest ++ tail)) s = exec (.data b0 v rest) s

/-- What a data datagram adds to the file: its decoded bytes, cut to the trimmed length, where its block number is EXPECTED, and
nothing where it is NACKed or answered with a duplicate ACK (43_session.md R198 items 2, 4 and 5; 20_memory.md R63). -/
def Obligations.TheFileGrowsByEachAcceptedBlock : Prop :=
  ∀ (i : Instr) (D : Bytes) (s t : State), dataDatagram i = some D → s.state = .awaitingBlock →
    D.length ≤ s.cfg.maxDgram → exec i s = .next t →
    (∀ k, (packetDecode s.cfg Deint.clear D).1 = .fail k → acceptedBytes t = acceptedBytes s) ∧
    (∀ header out len, (packetDecode s.cfg Deint.clear D).1 = .payload header out len →
      acceptedBytes t =
        if blockOf (D.getD 2 0) (D.getD 3 0) = s.expected then acceptedBytes s ++ out.take len else acceptedBytes s)

/-- The sink is written and closed only while it is open, and a step that closes it leaves it closed (10_state.md R27, R43). -/
def Obligations.SinkOutputsNeedAnOpenSink : Prop :=
  ∀ (s t : State) (os : List Output), s.Inv → step s = .next t → t.outbox = s.outbox ++ os →
    (os.any Output.isSink = true → s.sinkOpen = true) ∧ os.countP (fun o => o = .sinkClose) ≤ 1 ∧
    (Output.sinkClose ∈ os → t.sinkOpen = false)

/-- Wraparound (43_session.md R198 item 3, R190): with EXPECTED = 0xFFFF, after a full block numbered 0xFFFF a datagram numbered
0x0000 is the next block: it is ACKed as 0x0000 and not answered with a duplicate ACK. -/
def Obligations.BlockZeroFollowsBlockFFFF : Prop :=
  ∀ (i j : Instr) (D E header header' out out' : Bytes) (len : Nat) (s t u : State), s.state = .awaitingBlock →
    s.expected = 0xFFFF → dataDatagram i = some D → D.length ≤ s.cfg.maxDgram →
    (packetDecode s.cfg Deint.clear D).1 = .payload header out s.cfg.fullDataBytes →
    blockOf (D.getD 2 0) (D.getD 3 0) = 0xFFFF → exec i s = .next t →
    dataDatagram j = some E → E.length ≤ s.cfg.maxDgram →
    (packetDecode s.cfg Deint.clear E).1 = .payload header' out' len →
    blockOf (E.getD 2 0) (E.getD 3 0) = 0x0000 → exec j t = .next u →
    t.expected = 0x0000 ∧ u.expected = 0x0001 ∧ u.lastTx = [0x00, 0x04, 0x00, 0x00]

/-! ## Rows that are no host event -/

/-- The model's choice of what the rows RRQ and RRQ_ERR do when run alone (log 5): the request of 30_encoding.md R75, 4 + |name| + |mode| bytes, is
sent; no register changes. -/
def Obligations.RequestRowsSendTheirDatagram : Prop :=
  ∀ (name mode : Bytes) (s : State),
    exec (.rrq name mode) s = .next
      { s with outbox := s.outbox ++ [.tx ([0x00, 0x01] ++ name ++ [0x00] ++ mode ++ [0x00])] } ∧
    exec (.rrqErr name mode) s = .next
      { s with outbox := s.outbox ++ [.tx ([0x00, 0x02] ++ name ++ [0x00] ++ mode ++ [0x00])] } ∧
    ([0x00, 0x01] ++ name ++ [0x00] ++ mode ++ [0x00] : Bytes).length = 4 + name.length + mode.length

/-- The model's choice of what the rows ACK and NACK do when run alone (log 5): the 4 bytes of 30_encoding.md R77 and R78, the block number
high byte first, are sent; no register changes. -/
def Obligations.AckRowsSendTheirDatagram : Prop :=
  ∀ (v : BlockNo) (hi lo : Byte) (s : State), v = blockOf hi lo →
    exec (.ack v) s = .next
      { s with outbox := s.outbox ++ [.tx [0x00, 0x04, hi, lo]] } ∧
    exec (.nack v) s = .next
      { s with outbox := s.outbox ++ [.tx [0x00, 0x06, hi, lo]] }

/-- The model's choice of what the row HAM_CODEWORD does when run alone (log 6): the outputs of HAM_DECODE (40_codec.md R105) are emitted and
no register changes; for the matching encoder's codeword of a fragment they are that fragment, clean, and with one bit flipped
that fragment, corrected. -/
def Obligations.CodewordRowEmitsTheDecodedFragment : Prop :=
  (∀ (cw : Codeword) (s : State),
    exec (.hamCodeword cw) s = .next { s with outbox := s.outbox ++ [.codec (hamDecode s.cfg cw)] }) ∧
  (∀ (f : Frag) (q : Nat) (s : State), q ≤ 30 →
    exec (.hamCodeword (encodeFrag f ^^^ (1#32 <<< q))) s = .next
      { s with
        outbox := s.outbox ++
          [.codec
            { status := .corrected, frag := some f, checks := checks (encodeFrag f ^^^ (1#32 <<< q))
              syndrome := BitVec.ofNat 5 (q + 1), pos := some q }] })

/-! ## Fetch and encodings -/

/-- A step takes the oldest input and runs the instruction it decodes to (10_state.md R20, log 1). -/
def Obligations.StepRunsTheDecodedInstruction : Prop :=
  ∀ (s : State) (it : Item) (rest : List Item) (i : Instr), s.inbox = it :: rest → decode s.cfg it = .ok i →
    i.WellFormed → step s = exec i { s with inbox := rest }

/-- With no input the block waits, all state kept (60_exceptions.md R231); an input that decodes to no instruction is refused (log 14). -/
def Obligations.StepWaitsOrRefusesOtherwise : Prop :=
  (∀ s : State, s.inbox = [] → step s = .next s) ∧
  (∀ (s : State) (it : Item) (rest : List Item) (e : DecodeError), s.inbox = it :: rest → decode s.cfg it = .error e →
    step s = .refused (.undecodable e))

/-- Decoding the input that carries a well-formed instruction gives the instruction back, with every operand. -/
def Obligations.DecodingAnEncodingGivesTheInstruction : Prop :=
  ∀ (p : Params) (i : Instr), i.WellFormed → decode p (encode p i) = .ok i

/-- An input that decodes to an instruction is the encoding of that instruction: no input has a second spelling. For script lines this rests
on the model's choice of what it reads (log 14): upper-case hexadecimal alone, names of any bytes but 0x00 with the last quote
closing, no comment after an event. -/
def Obligations.EncodingADecodingGivesTheInput : Prop :=
  ∀ (p : Params) (it : Item) (i : Instr), decode p it = .ok i → encode p i = it

/-- Every instruction the decoder gives is well formed. -/
def Obligations.DecodedInstructionsAreWellFormed : Prop :=
  ∀ (p : Params) (it : Item) (i : Instr), decode p it = .ok i → i.WellFormed

/-- Some encodings of the spec, written out (30_encoding.md R74-R80, R83; 95_test_vectors.md sections 3.1, 3.5, 3.6), decode to the
instructions they stand for. -/
def Obligations.WrittenOutEncodingsDecode : Prop :=
  decode Params.default ⟨.transport, [0x00, 0x03, 0x00, 0x02, 0x01, 0x00, 0xA1, 0xA0]⟩ =
      .ok (.data 0x00 0x0002 [0x01, 0x00, 0xA1, 0xA0]) ∧
  decode Params.default ⟨.transport, [0x00, 0x05, 0x00, 0x01, 0x46, 0x00]⟩ = .ok (.error 0x00 0x00 0x01 [0x46, 0x00]) ∧
  decode Params.default ⟨.transport, [0x00, 0x04, 0xFF, 0xFE]⟩ = .ok (.rxOther 0x00 0x04 0xFFFE []) ∧
  decode Params.default ⟨.transport, [0x00, 0x03, 0x00]⟩ = .ok (.runt [0x00, 0x03, 0x00]) ∧
  decode Params.default ⟨.sender, [0x00, 0x04, 0xFF, 0xFE]⟩ = .ok (.ack 0xFFFE) ∧
  decode Params.default ⟨.codec, [0x37, 0xD6, 0x68, 0xA4]⟩ = .ok (.hamCodeword 0xA468D637) ∧
  decode Params.default ⟨.script, [0x52, 0x58, 0x20, 0x33, 0x46]⟩ = .ok (.rx [0x3F])

/-- 30_encoding.md R80: a received datagram is a runt if it has fewer than 4 bytes, ERROR if byte 1 is 05, and with any other byte 1 is
decoded as DATA; the block number is bytes 2 and 3, high byte first; byte 0 is not looked at. -/
def Obligations.DatagramsAreClassifiedByLengthAndByteOne : Prop :=
  (∀ D : Bytes, D.length < 4 → decodeDatagram D = .runt D) ∧
  (∀ (b0 b1 b2 b3 : Byte) (rest : Bytes),
    decodeDatagram (b0 :: b1 :: b2 :: b3 :: rest) =
      if b1 = 0x05 then .error b0 b2 b3 rest
      else if b1 = 0x03 then .data b0 (BitVec.ofNat 16 (b2.toNat * 256 + b3.toNat)) rest
      else .rxOther b0 b1 (BitVec.ofNat 16 (b2.toNat * 256 + b3.toNat)) rest) ∧
  (∀ (b0 op : Byte) (v : BlockNo) (rest : Bytes) (s : State), op ≠ 0x05 →
    exec (.rxOther b0 op v rest) s = exec (.data b0 v rest) s)

/-! ## The codec -/

/-- 20_memory.md R53: codeword position `p` is bit `p mod 8` of wire byte `p div 8` under LE, and of wire byte `3 - p div 8` under BE. -/
def Obligations.CodewordsAreAssembledFromWireBytes : Prop :=
  ∀ (b0 b1 b2 b3 : Byte) (q : Nat), q < 32 →
    (assemble .le b0 b1 b2 b3).getLsbD q = ([b0, b1, b2, b3].getD (q / 8) 0).getLsbD (q % 8) ∧
    (assemble .be b0 b1 b2 b3).getLsbD q = ([b3, b2, b1, b0].getD (q / 8) 0).getLsbD (q % 8)

/-- 40_codec.md R102 and R103: check `i` of 0..4 is the xor of the covered bits, the overall check the parity of the popcount, and the syndrome
the weighted sum of the localizing checks. -/
def Obligations.ChecksAreParitiesAndTheSyndromeTheirSum : Prop :=
  ∀ w : Codeword,
    (∀ i, i < 6 → (checks w).getLsbD i = check w i) ∧
    (∀ i, i < 5 → (check w i = true ↔
      ((List.range 31).filter fun q => ((q + 1) >>> i) % 2 == 1 && w.getLsbD q).length % 2 = 1)) ∧
    (check w 5 = true ↔ popcount w % 2 = 1) ∧
    (syndrome w).toNat = (check w 0).toNat * 1 + (check w 1).toNat * 2 + (check w 2).toNat * 4 + (check w 3).toNat * 8 +
      (check w 4).toNat * 16

/-- 40_codec.md R104: on a valid codeword with an error pattern, syndrome and overall check depend on the pattern alone; a single error at
position `p <= 30` gives `s = p + 1` and a failing overall check, one at 31 gives `s = 0` and a failing one, an even number of
errors a passing one, and no two errors give `s = 0`. -/
def Obligations.TheSyndromeNamesTheError : Prop :=
  (∀ v e : Codeword, ValidCodeword v → syndrome (v ^^^ e) = syndrome e ∧ check (v ^^^ e) 5 = check e 5) ∧
  (∀ v : Codeword, ValidCodeword v → ∀ q, q ≤ 30 →
    (syndrome (v ^^^ (1#32 <<< q))).toNat = q + 1 ∧ check (v ^^^ (1#32 <<< q)) 5 = true) ∧
  (∀ v : Codeword, ValidCodeword v → syndrome (v ^^^ (1#32 <<< 31)) = 0 ∧ check (v ^^^ (1#32 <<< 31)) 5 = true) ∧
  (∀ v e : Codeword, ValidCodeword v → popcount e % 2 = 0 →
    check (v ^^^ e) 5 = false ∧ (syndrome (v ^^^ e) = 0 ↔ ∀ i, i < 5 → check e i = false)) ∧
  (∀ v e : Codeword, ValidCodeword v → popcount e = 2 → syndrome (v ^^^ e) ≠ 0)

/-- 40_codec.md R112: single errors are corrected and double errors detected, for every valid codeword, under both values of
SYNDROME_ZERO_POLICY. -/
def Obligations.SingleErrorsAreCorrectedDoubleErrorsDetected : Prop :=
  ∀ (p : Params) (v : Codeword), ValidCodeword v →
    ((hamDecode p v).status = .clean ∧ (hamDecode p v).frag = some (extract v)) ∧
    (∀ q, q ≤ 30 →
      (hamDecode p (v ^^^ (1#32 <<< q))).status = .corrected ∧
      (hamDecode p (v ^^^ (1#32 <<< q))).frag = some (extract v) ∧ (hamDecode p (v ^^^ (1#32 <<< q))).pos = some q) ∧
    (p.syndromeZero = .correctParity →
      (hamDecode p (v ^^^ (1#32 <<< 31))).status = .corrected ∧
      (hamDecode p (v ^^^ (1#32 <<< 31))).frag = some (extract v) ∧ (hamDecode p (v ^^^ (1#32 <<< 31))).pos = some 31) ∧
    (p.syndromeZero = .reject → (hamDecode p (v ^^^ (1#32 <<< 31))).status = .uncorrectable) ∧
    (∀ q r, q < 32 → r < 32 → q ≠ r →
      (hamDecode p (v ^^^ (1#32 <<< q) ^^^ (1#32 <<< r))).status = .uncorrectable)

/-- The four cases of HAM_DECODE (40_codec.md R105, R106, R107, R109, R110), for every word: the re-check after a flip always accepts (R111). -/
def Obligations.HamDecodeFollowsItsFourCases : Prop :=
  ∀ (p : Params) (cw : Codeword),
    (syndrome cw = 0 → check cw 5 = false →
      hamDecode p cw = { status := .clean, frag := some (extract cw), checks := checks cw, syndrome := 0, pos := none }) ∧
    (syndrome cw ≠ 0 → check cw 5 = true →
      hamDecode p cw =
        { status := .corrected, frag := some (extract (cw ^^^ (1#32 <<< ((syndrome cw).toNat - 1)))), checks := checks cw
          syndrome := syndrome cw, pos := some ((syndrome cw).toNat - 1) }) ∧
    (syndrome cw = 0 → check cw 5 = true → p.syndromeZero = .correctParity →
      hamDecode p cw =
        { status := .corrected, frag := some (extract cw), checks := checks cw, syndrome := 0, pos := some 31 }) ∧
    (syndrome cw = 0 → check cw 5 = true → p.syndromeZero = .reject →
      hamDecode p cw = { status := .uncorrectable, frag := none, checks := checks cw, syndrome := 0, pos := none }) ∧
    (syndrome cw ≠ 0 → check cw 5 = false →
      hamDecode p cw =
        { status := .uncorrectable, frag := none, checks := checks cw, syndrome := syndrome cw, pos := none })

/-- 40_codec.md R113: with any error pattern `e` over a valid codeword the same table applies. An odd number of errors is always
corrected under CORRECT_PARITY, an even number is clean or uncorrectable; the fragment is that of the word after the table's
flip, right only where no data position is left wrong; and the rule's example of a miscorrection. -/
def Obligations.HeavierErrorsFollowTheSameTable : Prop :=
  (∀ (p : Params) (v e : Codeword), ValidCodeword v → popcount e % 2 = 1 →
    (p.syndromeZero = .correctParity ∨ syndrome e ≠ 0 →
      (hamDecode p (v ^^^ e)).status = .corrected ∧
      (hamDecode p (v ^^^ e)).frag =
        some (extract (v ^^^ e ^^^ (if syndrome e = 0 then 0 else 1#32 <<< ((syndrome e).toNat - 1))))) ∧
    (p.syndromeZero = .reject → syndrome e = 0 → (hamDecode p (v ^^^ e)).status = .uncorrectable)) ∧
  (∀ (p : Params) (v e : Codeword), ValidCodeword v → popcount e % 2 = 0 →
    (syndrome e ≠ 0 → (hamDecode p (v ^^^ e)).status = .uncorrectable) ∧
    (syndrome e = 0 → (hamDecode p (v ^^^ e)).status = .clean ∧ (hamDecode p (v ^^^ e)).frag = some (extract (v ^^^ e)))) ∧
  (∀ v x : Codeword, extract (v ^^^ x) = extract v ↔ ∀ q ∈ dataPositions, x.getLsbD q = false) ∧
  (ValidCodeword 0xA468D637 ∧ extract 0xA468D637 = 0x1234567 ∧
    ∀ p : Params, p.syndromeZero = .correctParity →
      (hamDecode p 0xA468D630).status = .corrected ∧ (hamDecode p 0xA468D630).syndrome = 0 ∧
      (hamDecode p 0xA468D630).pos = some 31 ∧ (hamDecode p 0xA468D630).frag = some 0x1234566)

/-- 40_codec.md R108: EXTRACT keeps the 26 data positions in ascending order (30_encoding.md R72) and drops the six parity positions;
logical bit `t` is bit `25 - t`, and the fragment is the number with logical bit 0, from position 30, as its bit 25. -/
def Obligations.ExtractReadsTheDataPositions : Prop :=
  (∀ (w : Codeword) (u : Nat), u < 26 → (extract w).getLsbD u = w.getLsbD (dataPositions.getD u 0)) ∧
  (∀ (w : Codeword) (t : Nat), t < 26 → logicalBit (extract w) t = w.getLsbD (dataPositions.getD (25 - t) 0)) ∧
  dataPositions = (List.range 32).filter (fun q => q ∉ [0, 1, 3, 7, 15, 31]) ∧
  (∀ w w' : Codeword, (∀ q, q ∉ [0, 1, 3, 7, 15, 31] → w.getLsbD q = w'.getLsbD q) → extract w = extract w')

/-- 40_codec.md R115: the all-zero word and the all-ones word are valid codewords; each check covers an even number of positions. -/
def Obligations.AllZerosAndAllOnesAreCodewords : Prop :=
  (∀ i, i < 5 → (cov i).length = 16) ∧
  (∀ w : Codeword, check w 5 = parityOver w (List.range 32)) ∧ (List.range 32).length = 32 ∧
  ∀ p : Params,
    hamDecode p 0x00000000 = { status := .clean, frag := some 0, checks := 0, syndrome := 0, pos := none } ∧
    hamDecode p 0xFFFFFFFF = { status := .clean, frag := some 0x3FFFFFF, checks := 0, syndrome := 0, pos := none }

/-- HAM_DECODE(ENCODE(f)) is clean and gives `f`, for every fragment (40_codec.md R116). -/
def Obligations.DecodingAnEncodedFragmentIsClean : Prop :=
  ∀ (p : Params) (f : Frag),
    hamDecode p (encodeFrag f) = { status := .clean, frag := some f, checks := 0, syndrome := 0, pos := none }

/-! ## The de-interleaver -/

/-- 41_deinterleave.md R137 (with R132 and R134): where the bytes of fragment `4g + j` stand under SEPARATE_CARRY, and the carry byte of a
complete group, in both carry orders. -/
def Obligations.SeparateCarryLayout : Prop :=
  ∀ (p : Params) (fs : List Frag) (g j : Nat) (f : Frag), p.packing = .separateCarry → j < 4 → fs[4 * g + j]? = some f →
    (deinterleave p fs)[13 * g + 3 * j]? = some (f.extractLsb' 18 8) ∧
    (deinterleave p fs)[13 * g + 3 * j + 1]? = some (f.extractLsb' 10 8) ∧
    (deinterleave p fs)[13 * g + 3 * j + 2]? = some (f.extractLsb' 2 8) ∧
    (4 * g + 4 ≤ fs.length →
      ∃ c : Byte, (deinterleave p fs)[13 * g + 12]? = some c ∧
        (p.carryOrder = .firstIsLsb →
          c.getLsbD (2 * j) = logicalBit f 24 ∧ c.getLsbD (2 * j + 1) = logicalBit f 25) ∧
        (p.carryOrder = .firstIsMsb →
          c.getLsbD (7 - 2 * j) = logicalBit f 24 ∧ c.getLsbD (7 - (2 * j + 1)) = logicalBit f 25))

/-- Under STREAM, output byte `k` is bits `8k..8k+7` of the fragments' logical bits laid end to end, most significant first
(41_deinterleave.md R136, 20_memory.md R55). -/
def Obligations.StreamLayout : Prop :=
  ∀ (p : Params) (fs : List Frag) (k m : Nat), p.packing = .stream → m < 8 → k < (deinterleave p fs).length →
    ((deinterleave p fs).getD k 0).getLsbD (7 - m) =
      logicalBit (fs.getD ((8 * k + m) / 26) 0) ((8 * k + m) % 26)

/-- 41_deinterleave.md R138: `n` fragments give DLEN(n) bytes in both packings, the two formulas agree, and `8*DLEN(n) = 26n - 2*(n mod 4)`. -/
def Obligations.OutputLengthIsDlen : Prop :=
  (∀ (p : Params) (fs : List Frag), (deinterleave p fs).length = dlen p.packing fs.length) ∧
  (∀ n : Nat, dlen .separateCarry n = 13 * (n / 4) + 3 * (n % 4) ∧ dlen .stream n = 26 * n / 8 ∧
    dlen .separateCarry n = dlen .stream n ∧ 8 * dlen .separateCarry n = 26 * n - 2 * (n % 4))

/-- 41_deinterleave.md R139: on whole groups de-interleaving is a bijection: every byte string of length `13q` is the output of exactly one
sequence of `4q` fragments. -/
def Obligations.WholeGroupsAreABijection : Prop :=
  ∀ (p : Params) (q : Nat) (bytes : Bytes), bytes.length = 13 * q →
    ∃ fs : List Frag, (fs.length = 4 * q ∧ deinterleave p fs = bytes) ∧
      ∀ fs' : List Frag, fs'.length = 4 * q → deinterleave p fs' = bytes → fs' = fs

/-! ## The packet decoder -/

/-- 42_packet_decode.md R153 and R151: PACKET_DECODE fails with the number of the first uncorrectable codeword, and otherwise gives the header
unchanged, the de-interleaved fragments of all codewords, and their trimmed length. -/
def Obligations.PacketDecodeStopsAtTheFirstUncorrectable : Prop :=
  ∀ (p : Params) (d : Deint) (D : Bytes),
    (∀ k, (packetDecode p d D).1 = .fail k ↔
      ∃ cw, (codewordsOf p.wireBitMap (D.drop 4))[k]? = some cw ∧ (hamDecode p cw).status = .uncorrectable ∧
        ∀ j cw', j < k → (codewordsOf p.wireBitMap (D.drop 4))[j]? = some cw' →
          (hamDecode p cw').status ≠ .uncorrectable) ∧
    (∀ fs : List Frag,
      (codewordsOf p.wireBitMap (D.drop 4)).map (fun cw => (hamDecode p cw).frag) = fs.map some →
      (packetDecode p d D).1 = .payload (D.take 4) (deinterleave p fs) (trim p (deinterleave p fs)))

/-- The decode of a datagram starts with the carry empty and leaves it empty, whatever the registers held (41_deinterleave.md R130,
10_state.md R30, 70_reset_and_hazards.md R250). -/
def Obligations.CarryNeverCrossesDatagrams : Prop :=
  ∀ (p : Params) (d : Deint) (D : Bytes),
    packetDecode p d D = packetDecode p Deint.clear D ∧ (packetDecode p d D).2 = Deint.clear

/-- 20_memory.md R56: the codewords of a datagram are at offsets `4 + 4k`, for `k < (|D| - 4) div 4`; the bytes left over belong to none. -/
def Obligations.CodewordsSitAtOffsetsOfFour : Prop :=
  ∀ (m : WireBitMap) (D : Bytes), 4 ≤ D.length →
    (codewordsOf m (D.drop 4)).length = (D.length - 4) / 4 ∧
    ∀ k, k < (D.length - 4) / 4 →
      (codewordsOf m (D.drop 4))[k]? =
        some (assemble m (D.getD (4 + 4 * k) 0) (D.getD (5 + 4 * k) 0) (D.getD (6 + 4 * k) 0) (D.getD (7 + 4 * k) 0))

/-- 42_packet_decode.md R161: TZ(OUT) is the largest `z` such that the last `z` bytes are zero. -/
def Obligations.TrailingZerosIsTheLargestRun : Prop :=
  ∀ out : Bytes,
    (trailingZeros out ≤ out.length ∧
      ∀ i, out.length - trailingZeros out ≤ i → i < out.length → out[i]? = some 0x00) ∧
    (∀ z, z ≤ out.length → (∀ i, out.length - z ≤ i → i < out.length → out[i]? = some 0x00) → z ≤ trailingZeros out)

/-- 42_packet_decode.md R163, under the default threshold: a payload is terminal exactly when it came from fewer than N_CW codewords, or from
N_CW codewords that decoded to all zero bytes, and then `L = 0`. -/
def Obligations.TerminalExactlyWhenShortOrAllZero : Prop :=
  ∀ (p : Params) (d : Deint) (D header out : Bytes) (len : Nat), 1 ≤ p.nCw → p.trimThreshold = p.fullDataBytes →
    4 ≤ D.length → D.length ≤ p.maxDgram → (packetDecode p d D).1 = .payload header out len →
    (len < p.fullDataBytes ↔
      (D.length - 4) / 4 < p.nCw ∨ ((D.length - 4) / 4 = p.nCw ∧ out = List.replicate p.fullDataBytes 0x00)) ∧
    (out = List.replicate p.fullDataBytes 0x00 → len = 0)

/-! ## End to end, with the matching encoder -/

/-- Decoding the datagram ENCODE_BLOCK makes of a block's bytes gives them back, followed by the zero padding of the last
codeword or group, at most 3 bytes (95_test_vectors.md section 2, 42_packet_decode.md R164). -/
def Obligations.AnEncodedBlockDecodesToItsBytes : Prop :=
  ∀ (p : Params) (blk : BlockNo) (bytes : Bytes), p.wireBitMap = .le → p.packing = .separateCarry →
    p.carryOrder = .firstIsLsb →
    ∃ z : Nat, z ≤ 3 ∧
      (packetDecode p Deint.clear (encodeBlock blk bytes)).1 =
        .payload [0x00, 0x03, blockHi blk, blockLo blk] (bytes ++ List.replicate z 0x00)
          (trim p (bytes ++ List.replicate z 0x00))

/-- A whole transfer with the default parameters and any N_CW >= 1, from START on: RX of the datagrams ENCODE_FILE makes of a file ends in `Done`, and
the file written is that file followed by at most 3 zero bytes (43_session.md R198 item 5, 95_test_vectors.md section 2). The premise is the one
R165 of 42_packet_decode.md needs: no chunk of the file that fills a block is all zero bytes. -/
def Obligations.AnEncodedFileIsReceived : Prop :=
  ∀ (n : Nat) (name file : Bytes) (s : State), 1 ≤ n → s.cfg = Params.standard n → s.state = .idle → (0 : Byte) ∉ name →
    s.inbox = encode s.cfg (.start 0x01 name .bound) :: (encodeFile s.cfg file).map (fun D => { port := .transport, bytes := D }) →
    (∀ c, (blockFrags ((file.drop (c * s.cfg.fullDataBytes)).take s.cfg.fullDataBytes) (n + 1)).length = n →
      ∃ b ∈ (file.drop (c * s.cfg.fullDataBytes)).take s.cfg.fullDataBytes, b ≠ 0x00) →
    ∃ (t : State) (z : Nat), Host.Core.run Sys2Proof.core s.inbox.length s = .next t ∧ t.state = .done ∧ z ≤ 3 ∧
      sinkBytes t.outbox = sinkBytes s.outbox ++ file ++ List.replicate z 0x00

end
end

