-- ==== Sys2Proof/Laws/Codec.lean ====
section
/-! SUPPORT. The small lemmas of the bit fields and of the codec: what each bit of a result is, and that the checks are linear
over xor. -/

namespace Sys2Proof.Machine

theorem testBit_bitsToNat (l : List Bool) (i : Nat) : (bitsToNat l).testBit i = l.getD i false := by
  induction l generalizing i with
  | nil => simp [bitsToNat]
  | cons b l ih =>
    cases i with
    | zero => cases b <;> simp [bitsToNat, Nat.testBit_zero]
    | succ i =>
      have half : bitsToNat (b :: l) / 2 = bitsToNat l := by cases b <;> simp [bitsToNat]; omega
      rw [Nat.testBit_succ, half, ih]
      simp

/-- Check `i` as bit `i` of `c[5:0]`. -/
theorem getLsbD_checks (w : Codeword) (i : Nat) : (checks w).getLsbD i = (decide (i < 6) && check w i) := by
  rw [checks, BitVec.getLsbD_ofNat, testBit_bitsToNat]
  by_cases h : i < 6 <;> simp [h]

/-- Check `i` as bit `i` of `s`. -/
theorem getLsbD_syndrome (w : Codeword) (i : Nat) : (syndrome w).getLsbD i = (decide (i < 5) && check w i) := by
  rw [syndrome, BitVec.getLsbD_ofNat, testBit_bitsToNat]
  by_cases h : i < 5 <;> simp [h]

theorem parityOver_cons (w : Codeword) (q : Nat) (qs : List Nat) :
    parityOver w (q :: qs) = (w.getLsbD q ^^ parityOver w qs) := rfl

theorem parityOver_xor (a b : Codeword) (qs : List Nat) :
    parityOver (a ^^^ b) qs = (parityOver a qs ^^ parityOver b qs) := by
  induction qs with
  | nil => rfl
  | cons q qs ih =>
    rw [parityOver_cons, parityOver_cons, parityOver_cons, ih, BitVec.getLsbD_xor]
    cases a.getLsbD q <;> cases b.getLsbD q <;> cases parityOver a qs <;> cases parityOver b qs <;> rfl

theorem check_xor (a b : Codeword) (i : Nat) : check (a ^^^ b) i = (check a i ^^ check b i) := by
  unfold check
  split <;> exact parityOver_xor _ _ _

theorem syndrome_xor (a b : Codeword) : syndrome (a ^^^ b) = syndrome a ^^^ syndrome b := by
  apply BitVec.eq_of_getLsbD_eq
  intro i hi
  simp only [BitVec.getLsbD_xor, getLsbD_syndrome, check_xor, hi]
  simp

/-- The word with one bit set has it at its position alone. -/
theorem getLsbD_one_shiftLeft (k j : Fin 32) : (1#32 <<< k.val).getLsbD j.val = decide (j = k) := by
  rcases k with ⟨k, hk⟩
  rcases j with ⟨j, hj⟩
  simp only [BitVec.getLsbD_shiftLeft, BitVec.getLsbD_one, hj, decide_true, Bool.true_and]
  by_cases h : j = k
  · subst h; simp
  · by_cases h2 : j < k
    · simp [h, h2]
    · simp [h, h2]; omega

/-- Writing one bit changes that bit alone. -/
theorem getLsbD_setBit (w : Codeword) (k j : Nat) (b : Bool) (hk : k < 32) :
    (setBit w k b).getLsbD j = if j = k then b else w.getLsbD j := by
  unfold setBit
  by_cases hj : j < 32
  · have one := getLsbD_one_shiftLeft ⟨k, hk⟩ ⟨j, hj⟩
    simp only [Fin.mk.injEq] at one
    rw [BitVec.getLsbD_or, BitVec.getLsbD_and, BitVec.getLsbD_not, one]
    by_cases h : j = k
    · subst h; cases b <;> simp [hj]
    · cases b <;> simp [h, hj]; intros; omega
  · rw [BitVec.getLsbD_of_ge _ _ (by omega), BitVec.getLsbD_of_ge _ _ (by omega)]
    simp; omega

/-- A bit that no entry of the list names is the word's. -/
theorem getLsbD_placeBits_of_notMem (w : Codeword) (l : List (Nat × Bool)) (j : Nat)
    (h : ∀ x ∈ l, x.1 < 32 ∧ x.1 ≠ j) : (placeBits w l).getLsbD j = w.getLsbD j := by
  induction l generalizing w with
  | nil => rfl
  | cons x l ih =>
    rw [placeBits, ih _ fun y hy => h y (by simp [hy]), getLsbD_setBit _ _ _ _ (h x (by simp)).1,
      if_neg fun e => (h x (by simp)).2 e.symm]

end Sys2Proof.Machine
end

