-- ==== Sys2Proof/Laws/Decode.lean ====
section
/-! SUPPORT. The small lemmas of the decoder's pieces: block numbers and their bytes, prefixes and suffixes, hexadecimal digits,
request fields. -/

namespace Sys2Proof

open Machine

theorem blockOf_blockHi_blockLo (v : BlockNo) : blockOf (blockHi v) (blockLo v) = v := by
  apply BitVec.eq_of_toNat_eq
  simp [blockHi, blockLo, blockOf, Nat.shiftRight_eq_div_pow]
  omega

theorem blockHi_blockOf (hi lo : Byte) : blockHi (blockOf hi lo) = hi := by
  apply BitVec.eq_of_toNat_eq
  simp [blockHi, blockOf, Nat.shiftRight_eq_div_pow]
  omega

theorem blockLo_blockOf (hi lo : Byte) : blockLo (blockOf hi lo) = lo := by
  apply BitVec.eq_of_toNat_eq
  simp [blockLo, blockOf]
  omega

theorem stripPrefix_append (a b : Bytes) : stripPrefix a (a ++ b) = some b := by
  induction a with
  | nil => rfl
  | cons x a ih => simp [stripPrefix, ih]

theorem eq_append_of_stripPrefix {a l b : Bytes} (h : stripPrefix a l = some b) : l = a ++ b := by
  induction a generalizing l with
  | nil => simp [stripPrefix] at h; simp [h]
  | cons x a ih =>
    cases l with
    | nil => simp [stripPrefix] at h
    | cons y l => simp [stripPrefix] at h; simp [h.1, ih h.2]

theorem stripSuffix_append (a b : Bytes) : stripSuffix a (b ++ a) = some b := by
  simp [stripSuffix, stripPrefix_append]

theorem eq_append_of_stripSuffix {a l b : Bytes} (h : stripSuffix a l = some b) : l = b ++ a := by
  simp [stripSuffix] at h
  obtain ⟨x, h, rfl⟩ := h
  rw [← List.reverse_reverse l, eq_append_of_stripPrefix h]
  simp

theorem hexValue_hexDigit : ∀ n : Fin 16, hexValue (hexDigit n.val) = some n.val := by decide

theorem splitAtZero_append (name rest : Bytes) (h : (0 : Byte) ∉ name) :
    splitAtZero (name ++ 0 :: rest) = some (name, rest) := by
  induction name with
  | nil => simp [splitAtZero]
  | cons x name ih =>
    simp only [List.mem_cons, not_or] at h
    rw [List.cons_append, splitAtZero, if_neg (Ne.symm h.1), ih h.2]

/-- What `splitAtZero` answers: the bytes before the first zero, which hold none, and those after it. -/
theorem splitAtZero_spec : ∀ {l name rest : Bytes}, splitAtZero l = some (name, rest) →
    l = name ++ 0 :: rest ∧ (0 : Byte) ∉ name
  | [], _, _, h => by simp [splitAtZero] at h
  | x :: l, name, rest, h => by
    simp only [splitAtZero] at h
    split at h
    · rename_i hx
      simp at h
      obtain ⟨rfl, rfl⟩ := h
      simp [hx]
    · rename_i hx
      split at h
      · rename_i e
        simp at h
        obtain ⟨rfl, rfl⟩ := h
        obtain ⟨h1, h2⟩ := splitAtZero_spec e
        exact ⟨by simp [h1], by simp only [List.mem_cons, not_or]; exact ⟨Ne.symm hx, h2⟩⟩
      · simp at h

end Sys2Proof
end

