-- ==== Sys2Proof/Laws/State.lean ====
section
/-! SUPPORT. One lemma per field of State per update. -/

namespace Sys2Proof.Machine

variable (s : State)

/-! `emit` -/

@[simp] theorem State.emit_cfg (o : Output) : (s.emit o).cfg = s.cfg := rfl
@[simp] theorem State.emit_state (o : Output) : (s.emit o).state = s.state := rfl
@[simp] theorem State.emit_expected (o : Output) : (s.emit o).expected = s.expected := rfl
@[simp] theorem State.emit_nackCache (o : Output) : (s.emit o).nackCache = s.nackCache := rfl
@[simp] theorem State.emit_nackValid (o : Output) : (s.emit o).nackValid = s.nackValid := rfl
@[simp] theorem State.emit_pendValid (o : Output) : (s.emit o).pendValid = s.pendValid := rfl
@[simp] theorem State.emit_pendData (o : Output) : (s.emit o).pendData = s.pendData := rfl
@[simp] theorem State.emit_pendLen (o : Output) : (s.emit o).pendLen = s.pendLen := rfl
@[simp] theorem State.emit_terminal (o : Output) : (s.emit o).terminal = s.terminal := rfl
@[simp] theorem State.emit_lastTx (o : Output) : (s.emit o).lastTx = s.lastTx := rfl
@[simp] theorem State.emit_lastTxValid (o : Output) : (s.emit o).lastTxValid = s.lastTxValid := rfl
@[simp] theorem State.emit_sinkOpen (o : Output) : (s.emit o).sinkOpen = s.sinkOpen := rfl
@[simp] theorem State.emit_resends (o : Output) : (s.emit o).resends = s.resends := rfl
@[simp] theorem State.emit_errKind (o : Output) : (s.emit o).errKind = s.errKind := rfl
@[simp] theorem State.emit_errMsg (o : Output) : (s.emit o).errMsg = s.errMsg := rfl
@[simp] theorem State.emit_deint (o : Output) : (s.emit o).deint = s.deint := rfl
@[simp] theorem State.emit_inbox (o : Output) : (s.emit o).inbox = s.inbox := rfl
@[simp] theorem State.emit_outbox (o : Output) : (s.emit o).outbox = s.outbox ++ [o] := rfl
@[simp] theorem State.emit_stateTrace (o : Output) : (s.emit o).stateTrace = s.stateTrace := rfl

/-! `goto` -/

@[simp] theorem State.goto_cfg (t : Session) : (s.goto t).cfg = s.cfg := rfl
@[simp] theorem State.goto_state (t : Session) : (s.goto t).state = t := rfl
@[simp] theorem State.goto_expected (t : Session) : (s.goto t).expected = s.expected := rfl
@[simp] theorem State.goto_nackCache (t : Session) : (s.goto t).nackCache = s.nackCache := rfl
@[simp] theorem State.goto_nackValid (t : Session) : (s.goto t).nackValid = s.nackValid := rfl
@[simp] theorem State.goto_pendValid (t : Session) : (s.goto t).pendValid = s.pendValid := rfl
@[simp] theorem State.goto_pendData (t : Session) : (s.goto t).pendData = s.pendData := rfl
@[simp] theorem State.goto_pendLen (t : Session) : (s.goto t).pendLen = s.pendLen := rfl
@[simp] theorem State.goto_terminal (t : Session) : (s.goto t).terminal = s.terminal := rfl
@[simp] theorem State.goto_lastTx (t : Session) : (s.goto t).lastTx = s.lastTx := rfl
@[simp] theorem State.goto_lastTxValid (t : Session) : (s.goto t).lastTxValid = s.lastTxValid := rfl
@[simp] theorem State.goto_sinkOpen (t : Session) : (s.goto t).sinkOpen = s.sinkOpen := rfl
@[simp] theorem State.goto_resends (t : Session) : (s.goto t).resends = s.resends := rfl
@[simp] theorem State.goto_errKind (t : Session) : (s.goto t).errKind = s.errKind := rfl
@[simp] theorem State.goto_errMsg (t : Session) : (s.goto t).errMsg = s.errMsg := rfl
@[simp] theorem State.goto_deint (t : Session) : (s.goto t).deint = s.deint := rfl
@[simp] theorem State.goto_inbox (t : Session) : (s.goto t).inbox = s.inbox := rfl
@[simp] theorem State.goto_outbox (t : Session) : (s.goto t).outbox = s.outbox := rfl
@[simp] theorem State.goto_stateTrace (t : Session) : (s.goto t).stateTrace = s.stateTrace ++ [t] := rfl

/-! `transmit` -/

@[simp] theorem State.transmit_cfg (B : Bytes) : (s.transmit B).cfg = s.cfg := rfl
@[simp] theorem State.transmit_state (B : Bytes) : (s.transmit B).state = s.state := rfl
@[simp] theorem State.transmit_expected (B : Bytes) : (s.transmit B).expected = s.expected := rfl
@[simp] theorem State.transmit_nackCache (B : Bytes) : (s.transmit B).nackCache = s.nackCache := rfl
@[simp] theorem State.transmit_nackValid (B : Bytes) : (s.transmit B).nackValid = s.nackValid := rfl
@[simp] theorem State.transmit_pendValid (B : Bytes) : (s.transmit B).pendValid = s.pendValid := rfl
@[simp] theorem State.transmit_pendData (B : Bytes) : (s.transmit B).pendData = s.pendData := rfl
@[simp] theorem State.transmit_pendLen (B : Bytes) : (s.transmit B).pendLen = s.pendLen := rfl
@[simp] theorem State.transmit_terminal (B : Bytes) : (s.transmit B).terminal = s.terminal := rfl
@[simp] theorem State.transmit_lastTx (B : Bytes) : (s.transmit B).lastTx = B := rfl
@[simp] theorem State.transmit_lastTxValid (B : Bytes) : (s.transmit B).lastTxValid = s.lastTxValid := rfl
@[simp] theorem State.transmit_sinkOpen (B : Bytes) : (s.transmit B).sinkOpen = s.sinkOpen := rfl
@[simp] theorem State.transmit_resends (B : Bytes) : (s.transmit B).resends = s.resends := rfl
@[simp] theorem State.transmit_errKind (B : Bytes) : (s.transmit B).errKind = s.errKind := rfl
@[simp] theorem State.transmit_errMsg (B : Bytes) : (s.transmit B).errMsg = s.errMsg := rfl
@[simp] theorem State.transmit_deint (B : Bytes) : (s.transmit B).deint = s.deint := rfl
@[simp] theorem State.transmit_inbox (B : Bytes) : (s.transmit B).inbox = s.inbox := rfl
@[simp] theorem State.transmit_outbox (B : Bytes) : (s.transmit B).outbox = s.outbox ++ [.tx B] := rfl
@[simp] theorem State.transmit_stateTrace (B : Bytes) : (s.transmit B).stateTrace = s.stateTrace := rfl

/-! `transmitRequest` -/

@[simp] theorem State.transmitRequest_cfg (B : Bytes) : (s.transmitRequest B).cfg = s.cfg := rfl
@[simp] theorem State.transmitRequest_state (B : Bytes) : (s.transmitRequest B).state = s.state := rfl
@[simp] theorem State.transmitRequest_expected (B : Bytes) : (s.transmitRequest B).expected = s.expected := rfl
@[simp] theorem State.transmitRequest_nackCache (B : Bytes) : (s.transmitRequest B).nackCache = s.nackCache := rfl
@[simp] theorem State.transmitRequest_nackValid (B : Bytes) : (s.transmitRequest B).nackValid = s.nackValid := rfl
@[simp] theorem State.transmitRequest_pendValid (B : Bytes) : (s.transmitRequest B).pendValid = s.pendValid := rfl
@[simp] theorem State.transmitRequest_pendData (B : Bytes) : (s.transmitRequest B).pendData = s.pendData := rfl
@[simp] theorem State.transmitRequest_pendLen (B : Bytes) : (s.transmitRequest B).pendLen = s.pendLen := rfl
@[simp] theorem State.transmitRequest_terminal (B : Bytes) : (s.transmitRequest B).terminal = s.terminal := rfl
@[simp] theorem State.transmitRequest_lastTx (B : Bytes) : (s.transmitRequest B).lastTx = B := rfl
@[simp] theorem State.transmitRequest_lastTxValid (B : Bytes) : (s.transmitRequest B).lastTxValid = true := rfl
@[simp] theorem State.transmitRequest_sinkOpen (B : Bytes) : (s.transmitRequest B).sinkOpen = s.sinkOpen := rfl
@[simp] theorem State.transmitRequest_resends (B : Bytes) : (s.transmitRequest B).resends = s.resends := rfl
@[simp] theorem State.transmitRequest_errKind (B : Bytes) : (s.transmitRequest B).errKind = s.errKind := rfl
@[simp] theorem State.transmitRequest_errMsg (B : Bytes) : (s.transmitRequest B).errMsg = s.errMsg := rfl
@[simp] theorem State.transmitRequest_deint (B : Bytes) : (s.transmitRequest B).deint = s.deint := rfl
@[simp] theorem State.transmitRequest_inbox (B : Bytes) : (s.transmitRequest B).inbox = s.inbox := rfl
@[simp] theorem State.transmitRequest_outbox (B : Bytes) : (s.transmitRequest B).outbox = s.outbox ++ [.tx B] := rfl
@[simp] theorem State.transmitRequest_stateTrace (B : Bytes) : (s.transmitRequest B).stateTrace = s.stateTrace := rfl

/-! `closeSink` -/

@[simp] theorem State.closeSink_cfg : (s.closeSink).cfg = s.cfg := rfl
@[simp] theorem State.closeSink_state : (s.closeSink).state = s.state := rfl
@[simp] theorem State.closeSink_expected : (s.closeSink).expected = s.expected := rfl
@[simp] theorem State.closeSink_nackCache : (s.closeSink).nackCache = s.nackCache := rfl
@[simp] theorem State.closeSink_nackValid : (s.closeSink).nackValid = s.nackValid := rfl
@[simp] theorem State.closeSink_pendValid : (s.closeSink).pendValid = s.pendValid := rfl
@[simp] theorem State.closeSink_pendData : (s.closeSink).pendData = s.pendData := rfl
@[simp] theorem State.closeSink_pendLen : (s.closeSink).pendLen = s.pendLen := rfl
@[simp] theorem State.closeSink_terminal : (s.closeSink).terminal = s.terminal := rfl
@[simp] theorem State.closeSink_lastTx : (s.closeSink).lastTx = s.lastTx := rfl
@[simp] theorem State.closeSink_lastTxValid : (s.closeSink).lastTxValid = s.lastTxValid := rfl
@[simp] theorem State.closeSink_sinkOpen : (s.closeSink).sinkOpen = false := rfl
@[simp] theorem State.closeSink_resends : (s.closeSink).resends = s.resends := rfl
@[simp] theorem State.closeSink_errKind : (s.closeSink).errKind = s.errKind := rfl
@[simp] theorem State.closeSink_errMsg : (s.closeSink).errMsg = s.errMsg := rfl
@[simp] theorem State.closeSink_deint : (s.closeSink).deint = s.deint := rfl
@[simp] theorem State.closeSink_inbox : (s.closeSink).inbox = s.inbox := rfl
@[simp] theorem State.closeSink_outbox : (s.closeSink).outbox = s.outbox ++ [.sinkClose] := rfl
@[simp] theorem State.closeSink_stateTrace : (s.closeSink).stateTrace = s.stateTrace := rfl

/-! `report` -/

@[simp] theorem State.report_cfg (r : Report) : (s.report r).cfg = s.cfg := rfl
@[simp] theorem State.report_state (r : Report) : (s.report r).state = s.state := rfl
@[simp] theorem State.report_expected (r : Report) : (s.report r).expected = s.expected := rfl
@[simp] theorem State.report_nackCache (r : Report) : (s.report r).nackCache = s.nackCache := rfl
@[simp] theorem State.report_nackValid (r : Report) : (s.report r).nackValid = s.nackValid := rfl
@[simp] theorem State.report_pendValid (r : Report) : (s.report r).pendValid = s.pendValid := rfl
@[simp] theorem State.report_pendData (r : Report) : (s.report r).pendData = s.pendData := rfl
@[simp] theorem State.report_pendLen (r : Report) : (s.report r).pendLen = s.pendLen := rfl
@[simp] theorem State.report_terminal (r : Report) : (s.report r).terminal = s.terminal := rfl
@[simp] theorem State.report_lastTx (r : Report) : (s.report r).lastTx = s.lastTx := rfl
@[simp] theorem State.report_lastTxValid (r : Report) : (s.report r).lastTxValid = s.lastTxValid := rfl
@[simp] theorem State.report_sinkOpen (r : Report) : (s.report r).sinkOpen = s.sinkOpen := rfl
@[simp] theorem State.report_resends (r : Report) : (s.report r).resends = s.resends := rfl
@[simp] theorem State.report_errKind (r : Report) : (s.report r).errKind = s.errKind := rfl
@[simp] theorem State.report_errMsg (r : Report) : (s.report r).errMsg = s.errMsg := rfl
@[simp] theorem State.report_deint (r : Report) : (s.report r).deint = s.deint := rfl
@[simp] theorem State.report_inbox (r : Report) : (s.report r).inbox = s.inbox := rfl
@[simp] theorem State.report_outbox (r : Report) : (s.report r).outbox = s.outbox ++ [.report r] := rfl
@[simp] theorem State.report_stateTrace (r : Report) : (s.report r).stateTrace = s.stateTrace := rfl

/-! `hold` -/

@[simp] theorem State.hold_cfg (d : Bytes) (n : Nat) : (s.hold d n).cfg = s.cfg := rfl
@[simp] theorem State.hold_state (d : Bytes) (n : Nat) : (s.hold d n).state = s.state := rfl
@[simp] theorem State.hold_expected (d : Bytes) (n : Nat) : (s.hold d n).expected = s.expected := rfl
@[simp] theorem State.hold_nackCache (d : Bytes) (n : Nat) : (s.hold d n).nackCache = s.nackCache := rfl
@[simp] theorem State.hold_nackValid (d : Bytes) (n : Nat) : (s.hold d n).nackValid = s.nackValid := rfl
@[simp] theorem State.hold_pendValid (d : Bytes) (n : Nat) : (s.hold d n).pendValid = true := rfl
@[simp] theorem State.hold_pendData (d : Bytes) (n : Nat) : (s.hold d n).pendData = d := rfl
@[simp] theorem State.hold_pendLen (d : Bytes) (n : Nat) : (s.hold d n).pendLen = n := rfl
@[simp] theorem State.hold_terminal (d : Bytes) (n : Nat) : (s.hold d n).terminal = s.terminal := rfl
@[simp] theorem State.hold_lastTx (d : Bytes) (n : Nat) : (s.hold d n).lastTx = s.lastTx := rfl
@[simp] theorem State.hold_lastTxValid (d : Bytes) (n : Nat) : (s.hold d n).lastTxValid = s.lastTxValid := rfl
@[simp] theorem State.hold_sinkOpen (d : Bytes) (n : Nat) : (s.hold d n).sinkOpen = s.sinkOpen := rfl
@[simp] theorem State.hold_resends (d : Bytes) (n : Nat) : (s.hold d n).resends = s.resends := rfl
@[simp] theorem State.hold_errKind (d : Bytes) (n : Nat) : (s.hold d n).errKind = s.errKind := rfl
@[simp] theorem State.hold_errMsg (d : Bytes) (n : Nat) : (s.hold d n).errMsg = s.errMsg := rfl
@[simp] theorem State.hold_deint (d : Bytes) (n : Nat) : (s.hold d n).deint = s.deint := rfl
@[simp] theorem State.hold_inbox (d : Bytes) (n : Nat) : (s.hold d n).inbox = s.inbox := rfl
@[simp] theorem State.hold_outbox (d : Bytes) (n : Nat) : (s.hold d n).outbox = s.outbox := rfl
@[simp] theorem State.hold_stateTrace (d : Bytes) (n : Nat) : (s.hold d n).stateTrace = s.stateTrace := rfl

/-! `flushFinal` -/

@[simp] theorem State.flushFinal_cfg : (s.flushFinal).cfg = s.cfg := rfl
@[simp] theorem State.flushFinal_state : (s.flushFinal).state = s.state := rfl
@[simp] theorem State.flushFinal_expected : (s.flushFinal).expected = s.expected := rfl
@[simp] theorem State.flushFinal_nackCache : (s.flushFinal).nackCache = s.nackCache := rfl
@[simp] theorem State.flushFinal_nackValid : (s.flushFinal).nackValid = s.nackValid := rfl
@[simp] theorem State.flushFinal_pendValid : (s.flushFinal).pendValid = false := rfl
@[simp] theorem State.flushFinal_pendData : (s.flushFinal).pendData = s.pendData := rfl
@[simp] theorem State.flushFinal_pendLen : (s.flushFinal).pendLen = s.pendLen := rfl
@[simp] theorem State.flushFinal_terminal : (s.flushFinal).terminal = s.terminal := rfl
@[simp] theorem State.flushFinal_lastTx : (s.flushFinal).lastTx = s.lastTx := rfl
@[simp] theorem State.flushFinal_lastTxValid : (s.flushFinal).lastTxValid = s.lastTxValid := rfl
@[simp] theorem State.flushFinal_sinkOpen : (s.flushFinal).sinkOpen = s.sinkOpen := rfl
@[simp] theorem State.flushFinal_resends : (s.flushFinal).resends = s.resends := rfl
@[simp] theorem State.flushFinal_errKind : (s.flushFinal).errKind = s.errKind := rfl
@[simp] theorem State.flushFinal_errMsg : (s.flushFinal).errMsg = s.errMsg := rfl
@[simp] theorem State.flushFinal_deint : (s.flushFinal).deint = s.deint := rfl
@[simp] theorem State.flushFinal_inbox : (s.flushFinal).inbox = s.inbox := rfl
@[simp] theorem State.flushFinal_outbox : (s.flushFinal).outbox = s.outbox ++ [.sinkWrite (s.pendData.take s.pendLen)] := rfl
@[simp] theorem State.flushFinal_stateTrace : (s.flushFinal).stateTrace = s.stateTrace := rfl

/-! `clearResends` -/

@[simp] theorem State.clearResends_cfg : (s.clearResends).cfg = s.cfg := rfl
@[simp] theorem State.clearResends_state : (s.clearResends).state = s.state := rfl
@[simp] theorem State.clearResends_expected : (s.clearResends).expected = s.expected := rfl
@[simp] theorem State.clearResends_nackCache : (s.clearResends).nackCache = s.nackCache := rfl
@[simp] theorem State.clearResends_nackValid : (s.clearResends).nackValid = s.nackValid := rfl
@[simp] theorem State.clearResends_pendValid : (s.clearResends).pendValid = s.pendValid := rfl
@[simp] theorem State.clearResends_pendData : (s.clearResends).pendData = s.pendData := rfl
@[simp] theorem State.clearResends_pendLen : (s.clearResends).pendLen = s.pendLen := rfl
@[simp] theorem State.clearResends_terminal : (s.clearResends).terminal = s.terminal := rfl
@[simp] theorem State.clearResends_lastTx : (s.clearResends).lastTx = s.lastTx := rfl
@[simp] theorem State.clearResends_lastTxValid : (s.clearResends).lastTxValid = s.lastTxValid := rfl
@[simp] theorem State.clearResends_sinkOpen : (s.clearResends).sinkOpen = s.sinkOpen := rfl
@[simp] theorem State.clearResends_resends : (s.clearResends).resends = 0 := rfl
@[simp] theorem State.clearResends_errKind : (s.clearResends).errKind = s.errKind := rfl
@[simp] theorem State.clearResends_errMsg : (s.clearResends).errMsg = s.errMsg := rfl
@[simp] theorem State.clearResends_deint : (s.clearResends).deint = s.deint := rfl
@[simp] theorem State.clearResends_inbox : (s.clearResends).inbox = s.inbox := rfl
@[simp] theorem State.clearResends_outbox : (s.clearResends).outbox = s.outbox := rfl
@[simp] theorem State.clearResends_stateTrace : (s.clearResends).stateTrace = s.stateTrace := rfl

/-! `taken` -/

@[simp] theorem State.taken_cfg : (s.taken).cfg = s.cfg := rfl
@[simp] theorem State.taken_state : (s.taken).state = s.state := rfl
@[simp] theorem State.taken_expected : (s.taken).expected = s.expected := rfl
@[simp] theorem State.taken_nackCache : (s.taken).nackCache = s.nackCache := rfl
@[simp] theorem State.taken_nackValid : (s.taken).nackValid = s.nackValid := rfl
@[simp] theorem State.taken_pendValid : (s.taken).pendValid = s.pendValid := rfl
@[simp] theorem State.taken_pendData : (s.taken).pendData = s.pendData := rfl
@[simp] theorem State.taken_pendLen : (s.taken).pendLen = s.pendLen := rfl
@[simp] theorem State.taken_terminal : (s.taken).terminal = s.terminal := rfl
@[simp] theorem State.taken_lastTx : (s.taken).lastTx = s.lastTx := rfl
@[simp] theorem State.taken_lastTxValid : (s.taken).lastTxValid = s.lastTxValid := rfl
@[simp] theorem State.taken_sinkOpen : (s.taken).sinkOpen = s.sinkOpen := rfl
@[simp] theorem State.taken_resends : (s.taken).resends = s.resends := rfl
@[simp] theorem State.taken_errKind : (s.taken).errKind = s.errKind := rfl
@[simp] theorem State.taken_errMsg : (s.taken).errMsg = s.errMsg := rfl
@[simp] theorem State.taken_deint : (s.taken).deint = s.deint := rfl
@[simp] theorem State.taken_inbox : (s.taken).inbox = s.inbox.tail := rfl
@[simp] theorem State.taken_outbox : (s.taken).outbox = s.outbox := rfl
@[simp] theorem State.taken_stateTrace : (s.taken).stateTrace = s.stateTrace := rfl

/-! `ackAndAdvance` -/

@[simp] theorem State.ackAndAdvance_cfg : (s.ackAndAdvance).cfg = s.cfg := rfl
@[simp] theorem State.ackAndAdvance_state : (s.ackAndAdvance).state = s.state := rfl
@[simp] theorem State.ackAndAdvance_expected : (s.ackAndAdvance).expected = s.expected + 1 := rfl
@[simp] theorem State.ackAndAdvance_nackCache : (s.ackAndAdvance).nackCache = s.nackCache := rfl
@[simp] theorem State.ackAndAdvance_nackValid : (s.ackAndAdvance).nackValid = false := rfl
@[simp] theorem State.ackAndAdvance_pendValid : (s.ackAndAdvance).pendValid = s.pendValid := rfl
@[simp] theorem State.ackAndAdvance_pendData : (s.ackAndAdvance).pendData = s.pendData := rfl
@[simp] theorem State.ackAndAdvance_pendLen : (s.ackAndAdvance).pendLen = s.pendLen := rfl
@[simp] theorem State.ackAndAdvance_terminal : (s.ackAndAdvance).terminal = s.terminal := rfl
@[simp] theorem State.ackAndAdvance_lastTx : (s.ackAndAdvance).lastTx = ackBytes s.expected := rfl
@[simp] theorem State.ackAndAdvance_lastTxValid : (s.ackAndAdvance).lastTxValid = s.lastTxValid := rfl
@[simp] theorem State.ackAndAdvance_sinkOpen : (s.ackAndAdvance).sinkOpen = s.sinkOpen := rfl
@[simp] theorem State.ackAndAdvance_resends : (s.ackAndAdvance).resends = s.resends := rfl
@[simp] theorem State.ackAndAdvance_errKind : (s.ackAndAdvance).errKind = s.errKind := rfl
@[simp] theorem State.ackAndAdvance_errMsg : (s.ackAndAdvance).errMsg = s.errMsg := rfl
@[simp] theorem State.ackAndAdvance_deint : (s.ackAndAdvance).deint = s.deint := rfl
@[simp] theorem State.ackAndAdvance_inbox : (s.ackAndAdvance).inbox = s.inbox := rfl
@[simp] theorem State.ackAndAdvance_outbox : (s.ackAndAdvance).outbox = s.outbox ++ [.tx (ackBytes s.expected)] := rfl
@[simp] theorem State.ackAndAdvance_stateTrace : (s.ackAndAdvance).stateTrace = s.stateTrace := rfl

/-! `beginTransfer` -/

@[simp] theorem State.beginTransfer_cfg : (s.beginTransfer).cfg = s.cfg := rfl
@[simp] theorem State.beginTransfer_state : (s.beginTransfer).state = s.state := rfl
@[simp] theorem State.beginTransfer_expected : (s.beginTransfer).expected = s.cfg.initialExpected := rfl
@[simp] theorem State.beginTransfer_nackCache : (s.beginTransfer).nackCache = 0 := rfl
@[simp] theorem State.beginTransfer_nackValid : (s.beginTransfer).nackValid = false := rfl
@[simp] theorem State.beginTransfer_pendValid : (s.beginTransfer).pendValid = false := rfl
@[simp] theorem State.beginTransfer_pendData : (s.beginTransfer).pendData = s.pendData := rfl
@[simp] theorem State.beginTransfer_pendLen : (s.beginTransfer).pendLen = 0 := rfl
@[simp] theorem State.beginTransfer_terminal : (s.beginTransfer).terminal = false := rfl
@[simp] theorem State.beginTransfer_lastTx : (s.beginTransfer).lastTx = s.lastTx := rfl
@[simp] theorem State.beginTransfer_lastTxValid : (s.beginTransfer).lastTxValid = s.lastTxValid := rfl
@[simp] theorem State.beginTransfer_sinkOpen : (s.beginTransfer).sinkOpen = s.sinkOpen := rfl
@[simp] theorem State.beginTransfer_resends : (s.beginTransfer).resends = 0 := rfl
@[simp] theorem State.beginTransfer_errKind : (s.beginTransfer).errKind = .none := rfl
@[simp] theorem State.beginTransfer_errMsg : (s.beginTransfer).errMsg = [] := rfl
@[simp] theorem State.beginTransfer_deint : (s.beginTransfer).deint = s.deint := rfl
@[simp] theorem State.beginTransfer_inbox : (s.beginTransfer).inbox = s.inbox := rfl
@[simp] theorem State.beginTransfer_outbox : (s.beginTransfer).outbox = s.outbox := rfl
@[simp] theorem State.beginTransfer_stateTrace : (s.beginTransfer).stateTrace = s.stateTrace := rfl

theorem State.flushFull_eq : s.flushFull = { s with pendValid := false, outbox := s.outbox ++ heldWrite s } := by
  cases s with
  | mk _ _ _ _ _ pendValid => cases pendValid <;> simp [State.flushFull, heldWrite, State.emit]

theorem State.captureNack_eq (D : Bytes) :
    s.captureNack D = { s with nackCache := captured s D, nackValid := true } := by
  cases s with
  | mk _ _ _ _ nackValid => cases nackValid <;> simp [State.captureNack, captured, headerBlock]

/-! `flushFull` -/

@[simp] theorem State.flushFull_cfg : (s.flushFull).cfg = s.cfg := by rw [State.flushFull_eq]
@[simp] theorem State.flushFull_state : (s.flushFull).state = s.state := by rw [State.flushFull_eq]
@[simp] theorem State.flushFull_expected : (s.flushFull).expected = s.expected := by rw [State.flushFull_eq]
@[simp] theorem State.flushFull_nackCache : (s.flushFull).nackCache = s.nackCache := by rw [State.flushFull_eq]
@[simp] theorem State.flushFull_nackValid : (s.flushFull).nackValid = s.nackValid := by rw [State.flushFull_eq]
@[simp] theorem State.flushFull_pendValid : (s.flushFull).pendValid = false := by rw [State.flushFull_eq]
@[simp] theorem State.flushFull_pendData : (s.flushFull).pendData = s.pendData := by rw [State.flushFull_eq]
@[simp] theorem State.flushFull_pendLen : (s.flushFull).pendLen = s.pendLen := by rw [State.flushFull_eq]
@[simp] theorem State.flushFull_terminal : (s.flushFull).terminal = s.terminal := by rw [State.flushFull_eq]
@[simp] theorem State.flushFull_lastTx : (s.flushFull).lastTx = s.lastTx := by rw [State.flushFull_eq]
@[simp] theorem State.flushFull_lastTxValid : (s.flushFull).lastTxValid = s.lastTxValid := by rw [State.flushFull_eq]
@[simp] theorem State.flushFull_sinkOpen : (s.flushFull).sinkOpen = s.sinkOpen := by rw [State.flushFull_eq]
@[simp] theorem State.flushFull_resends : (s.flushFull).resends = s.resends := by rw [State.flushFull_eq]
@[simp] theorem State.flushFull_errKind : (s.flushFull).errKind = s.errKind := by rw [State.flushFull_eq]
@[simp] theorem State.flushFull_errMsg : (s.flushFull).errMsg = s.errMsg := by rw [State.flushFull_eq]
@[simp] theorem State.flushFull_deint : (s.flushFull).deint = s.deint := by rw [State.flushFull_eq]
@[simp] theorem State.flushFull_inbox : (s.flushFull).inbox = s.inbox := by rw [State.flushFull_eq]
@[simp] theorem State.flushFull_outbox : (s.flushFull).outbox = s.outbox ++ heldWrite s := by rw [State.flushFull_eq]
@[simp] theorem State.flushFull_stateTrace : (s.flushFull).stateTrace = s.stateTrace := by rw [State.flushFull_eq]

/-! `captureNack` -/

@[simp] theorem State.captureNack_cfg (D : Bytes) : (s.captureNack D).cfg = s.cfg := by rw [State.captureNack_eq]
@[simp] theorem State.captureNack_state (D : Bytes) : (s.captureNack D).state = s.state := by rw [State.captureNack_eq]
@[simp] theorem State.captureNack_expected (D : Bytes) : (s.captureNack D).expected = s.expected := by rw [State.captureNack_eq]
@[simp] theorem State.captureNack_nackCache (D : Bytes) : (s.captureNack D).nackCache = captured s D := by rw [State.captureNack_eq]
@[simp] theorem State.captureNack_nackValid (D : Bytes) : (s.captureNack D).nackValid = true := by rw [State.captureNack_eq]
@[simp] theorem State.captureNack_pendValid (D : Bytes) : (s.captureNack D).pendValid = s.pendValid := by rw [State.captureNack_eq]
@[simp] theorem State.captureNack_pendData (D : Bytes) : (s.captureNack D).pendData = s.pendData := by rw [State.captureNack_eq]
@[simp] theorem State.captureNack_pendLen (D : Bytes) : (s.captureNack D).pendLen = s.pendLen := by rw [State.captureNack_eq]
@[simp] theorem State.captureNack_terminal (D : Bytes) : (s.captureNack D).terminal = s.terminal := by rw [State.captureNack_eq]
@[simp] theorem State.captureNack_lastTx (D : Bytes) : (s.captureNack D).lastTx = s.lastTx := by rw [State.captureNack_eq]
@[simp] theorem State.captureNack_lastTxValid (D : Bytes) : (s.captureNack D).lastTxValid = s.lastTxValid := by rw [State.captureNack_eq]
@[simp] theorem State.captureNack_sinkOpen (D : Bytes) : (s.captureNack D).sinkOpen = s.sinkOpen := by rw [State.captureNack_eq]
@[simp] theorem State.captureNack_resends (D : Bytes) : (s.captureNack D).resends = s.resends := by rw [State.captureNack_eq]
@[simp] theorem State.captureNack_errKind (D : Bytes) : (s.captureNack D).errKind = s.errKind := by rw [State.captureNack_eq]
@[simp] theorem State.captureNack_errMsg (D : Bytes) : (s.captureNack D).errMsg = s.errMsg := by rw [State.captureNack_eq]
@[simp] theorem State.captureNack_deint (D : Bytes) : (s.captureNack D).deint = s.deint := by rw [State.captureNack_eq]
@[simp] theorem State.captureNack_inbox (D : Bytes) : (s.captureNack D).inbox = s.inbox := by rw [State.captureNack_eq]
@[simp] theorem State.captureNack_outbox (D : Bytes) : (s.captureNack D).outbox = s.outbox := by rw [State.captureNack_eq]
@[simp] theorem State.captureNack_stateTrace (D : Bytes) : (s.captureNack D).stateTrace = s.stateTrace := by rw [State.captureNack_eq]

/-! The state after reset -/

@[simp] theorem State.resetWith_cfg (p : Params) : (State.resetWith p).cfg = p := rfl
@[simp] theorem State.resetWith_state (p : Params) : (State.resetWith p).state = .idle := rfl
@[simp] theorem State.resetWith_expected (p : Params) : (State.resetWith p).expected = p.initialExpected := rfl
@[simp] theorem State.resetWith_nackCache (p : Params) : (State.resetWith p).nackCache = 0 := rfl
@[simp] theorem State.resetWith_nackValid (p : Params) : (State.resetWith p).nackValid = false := rfl
@[simp] theorem State.resetWith_pendValid (p : Params) : (State.resetWith p).pendValid = false := rfl
@[simp] theorem State.resetWith_pendData (p : Params) : (State.resetWith p).pendData = List.replicate p.fullDataBytes 0 := rfl
@[simp] theorem State.resetWith_pendLen (p : Params) : (State.resetWith p).pendLen = 0 := rfl
@[simp] theorem State.resetWith_terminal (p : Params) : (State.resetWith p).terminal = false := rfl
@[simp] theorem State.resetWith_lastTx (p : Params) : (State.resetWith p).lastTx = [] := rfl
@[simp] theorem State.resetWith_lastTxValid (p : Params) : (State.resetWith p).lastTxValid = false := rfl
@[simp] theorem State.resetWith_sinkOpen (p : Params) : (State.resetWith p).sinkOpen = false := rfl
@[simp] theorem State.resetWith_resends (p : Params) : (State.resetWith p).resends = 0 := rfl
@[simp] theorem State.resetWith_errKind (p : Params) : (State.resetWith p).errKind = .none := rfl
@[simp] theorem State.resetWith_errMsg (p : Params) : (State.resetWith p).errMsg = [] := rfl
@[simp] theorem State.resetWith_deint (p : Params) : (State.resetWith p).deint = Deint.clear := rfl
@[simp] theorem State.resetWith_inbox (p : Params) : (State.resetWith p).inbox = [] := rfl
@[simp] theorem State.resetWith_outbox (p : Params) : (State.resetWith p).outbox = [] := rfl
@[simp] theorem State.resetWith_stateTrace (p : Params) : (State.resetWith p).stateTrace = [] := rfl

end Sys2Proof.Machine
end

