-- ==== Sys2Proof/Laws/Ops.lean ====
section
/-! SUPPORT. What each shared operation of Machine/Ops.lean does, said once: the state it leaves, field by field. Proofs cite
these and never unfold an operation. -/

namespace Sys2Proof.Machine

variable (s : State)

theorem State.enterError_eq (c : Condition) (msg : Option Bytes) :
    s.enterError c msg =
      { s with
        state := .error, stateTrace := s.stateTrace ++ [.error], pendValid := false, errKind := c
        errMsg := msg.getD s.errMsg, sinkOpen := false
        outbox := s.outbox ++ [.sinkClose, .report (.error c msg)] } := by
  simp [State.enterError, State.closeSink, State.report, State.goto, State.emit]

theorem State.errorPacket_eq (D : Bytes) :
    s.errorPacket D =
      { s with
        state := .error, stateTrace := s.stateTrace ++ [.error], pendValid := false, errKind := .serverError
        errMsg := errorMessage D, sinkOpen := false
        outbox := s.outbox ++ [.sinkClose, .report (.error .serverError (some (errorMessage D)))] } := by
  simp [State.errorPacket, State.enterError_eq]

theorem State.retryExhausted_eq :
    s.retryExhausted =
      { s with
        state := .error, stateTrace := s.stateTrace ++ [.error], pendValid := false, errKind := .retryExhausted
        sinkOpen := false, outbox := s.outbox ++ [.sinkClose, .report (.error .retryExhausted none)] } := by
  simp [State.retryExhausted, State.enterError_eq]

theorem State.noHost_eq :
    s.noHost =
      { s with
        state := .error, stateTrace := s.stateTrace ++ [.error], sinkOpen := false, lastTxValid := false
        errKind := .noHost, outbox := s.outbox ++ [.report (.error .noHost none)] } := rfl

theorem State.sendRequest_eq (op : Byte) (name : Bytes) :
    s.sendRequest op name =
      { s with
        state := .awaitingBlock, stateTrace := s.stateTrace ++ [.requestSent, .awaitingBlock], sinkOpen := true
        lastTx := requestBytes op name s.cfg.mode, lastTxValid := true
        outbox := s.outbox ++ [.tx (requestBytes op name s.cfg.mode)] } := by
  simp [State.sendRequest, State.transmitRequest, State.transmit, State.goto, State.emit]

theorem State.timeoutStep_of_reached (h : s.cfg.maxResends.reached s.resends = true) :
    s.timeoutStep = s.retryExhausted := by
  simp [State.timeoutStep, h]

theorem State.timeoutStep_of_not_reached (h : s.cfg.maxResends.reached s.resends = false) :
    s.timeoutStep = { s with resends := s.resends + 1, outbox := s.outbox ++ [.tx s.lastTx] } := by
  simp [State.timeoutStep, h, State.emit]

theorem State.sendNack_eq :
    s.sendNack =
      { s with
        state := .awaitingBlock, stateTrace := s.stateTrace ++ [.nacking, .awaitingBlock]
        lastTx := nackBytes s.nackCache, outbox := s.outbox ++ [.tx (nackBytes s.nackCache)] } := by
  simp [State.sendNack, State.transmit, State.goto, State.emit]

theorem State.dupAck_eq :
    s.dupAck =
      { s with
        state := .awaitingBlock, stateTrace := s.stateTrace ++ [.acknowledging, .awaitingBlock]
        lastTx := ackBytes (s.expected - 1)
        outbox := s.outbox ++ [.tx (ackBytes (s.expected - 1))] } := by
  simp [State.dupAck, State.transmit, State.goto, State.emit]

theorem State.acceptFull_eq (out : Bytes) (len : Nat) :
    s.acceptFull out len =
      { s with
        state := .awaitingBlock, stateTrace := s.stateTrace ++ [.acknowledging, .awaitingBlock]
        pendData := out, pendLen := len, pendValid := true, lastTx := ackBytes s.expected
        expected := s.expected + 1, nackValid := false
        outbox := s.outbox ++ heldWrite s ++ [.tx (ackBytes s.expected)] } := by
  simp [State.acceptFull, State.flushFull_eq, State.ackAndAdvance, State.hold, State.transmit, State.goto, State.emit,
    heldWrite]

theorem State.acceptTerminal_eq (out : Bytes) (len : Nat) :
    s.acceptTerminal out len =
      { s with
        state := .done, stateTrace := s.stateTrace ++ [.finishing, .done]
        pendData := overwrite s.pendData out, pendLen := len, pendValid := false, terminal := true
        lastTx := ackBytes s.expected, expected := s.expected + 1, nackValid := false
        sinkOpen := false
        outbox := s.outbox ++ heldWrite s ++
          [.sinkWrite ((overwrite s.pendData out).take len), .tx (ackBytes s.expected), .sinkClose, .report .done] } := by
  simp [State.acceptTerminal, State.writeTerminal, State.flushFull_eq, State.flushFinal, State.ackAndAdvance, State.hold,
    State.transmit, State.closeSink, State.report, State.goto, State.emit, heldWrite]

/-- What the data path does, by the result of PACKET_DECODE (43_session.md R178). -/
theorem State.dataPath_eq (D : Bytes) :
    s.dataPath D =
      { s with nackCache := captured s D, nackValid := true, deint := (packetDecode s.cfg s.deint D).2 }.handleResult
        (packetDecode s.cfg s.deint D).1 := by
  simp [State.dataPath, State.captureNack_eq]

theorem packetDecode_deint (p : Params) (d : Deint) (D : Bytes) : (packetDecode p d D).2 = Deint.clear := by
  unfold packetDecode; split <;> rfl

theorem State.whenAwaiting_eq_next {f : State → State} {t : State} (h : s.whenAwaiting f = .next t) :
    (s.state = .awaitingBlock ∧ t = f s) ∨ (s.state ≠ .awaitingBlock ∧ s.state.resting = true ∧ t = s) := by
  unfold State.whenAwaiting at h
  cases hs : s.state <;> simp [hs] at h <;> simp [h, Session.resting]

theorem State.whenIdle_eq_next {f : State → State} {t : State} (h : s.whenIdle f = .next t) :
    (s.state = .idle ∧ t = f s) ∨ (s.state ≠ .idle ∧ s.state.resting = true ∧ t = s) := by
  unfold State.whenIdle at h
  cases hs : s.state <;> simp [hs] at h <;> simp [h, Session.resting]

theorem State.whenAwaiting_awaiting {f : State → State} (h : s.state = .awaitingBlock) : s.whenAwaiting f = .next (f s) := by
  simp [State.whenAwaiting, h]

theorem State.whenIdle_idle {f : State → State} (h : s.state = .idle) : s.whenIdle f = .next (f s) := by
  simp [State.whenIdle, h]

end Sys2Proof.Machine
end

