-- ==== Sys2Proof/Laws/PerInstr.lean ====
section
/-! SUPPORT. The families of statements made for each instruction. -/

namespace Sys2Proof.Laws

/-- The input that carries an instruction arrives at the instruction's port, whatever the parameters; what arrives at the transport
is the datagram itself, and never shorter than a header but for a runt. -/
def EncodedOnItsPort.Statement (i : Instr) : Prop :=
  ∀ p : Params, (encode p i).port = i.port ∧
    (i.port = .transport → i.WellFormed → ((encode p i).bytes.length < 4 ↔ ∃ D, i = .runt D))

theorem EncodedOnItsPort.rrq (name mode : Bytes) : EncodedOnItsPort.Statement (.rrq name mode) :=
  fun _ => ⟨rfl, by simp [Instr.port]⟩

theorem EncodedOnItsPort.rrqErr (name mode : Bytes) : EncodedOnItsPort.Statement (.rrqErr name mode) :=
  fun _ => ⟨rfl, by simp [Instr.port]⟩

theorem EncodedOnItsPort.ack (block : BlockNo) : EncodedOnItsPort.Statement (.ack block) :=
  fun _ => ⟨rfl, by simp [Instr.port]⟩

theorem EncodedOnItsPort.nack (block : BlockNo) : EncodedOnItsPort.Statement (.nack block) :=
  fun _ => ⟨rfl, by simp [Instr.port]⟩

theorem EncodedOnItsPort.error (b0 x y : Byte) (rest : Bytes) :
    EncodedOnItsPort.Statement (.error b0 x y rest) :=
  fun _ => ⟨rfl, by simp [encode, encodeBytes]⟩

theorem EncodedOnItsPort.data (b0 : Byte) (block : BlockNo) (rest : Bytes) :
    EncodedOnItsPort.Statement (.data b0 block rest) :=
  fun _ => ⟨rfl, by simp [encode, encodeBytes]⟩

theorem EncodedOnItsPort.rxOther (b0 op : Byte) (block : BlockNo) (rest : Bytes) :
    EncodedOnItsPort.Statement (.rxOther b0 op block rest) :=
  fun _ => ⟨rfl, by simp [encode, encodeBytes]⟩

theorem EncodedOnItsPort.runt (D : Bytes) : EncodedOnItsPort.Statement (.runt D) :=
  fun _ => ⟨rfl, fun _ h => ⟨fun _ => ⟨D, rfl⟩, fun _ => h⟩⟩

theorem EncodedOnItsPort.hamCodeword (cw : Codeword) : EncodedOnItsPort.Statement (.hamCodeword cw) :=
  fun _ => ⟨rfl, by simp [Instr.port]⟩

theorem EncodedOnItsPort.reset : EncodedOnItsPort.Statement .reset :=
  fun _ => ⟨rfl, by simp [Instr.port]⟩

theorem EncodedOnItsPort.start (op : Byte) (name : Bytes) (addr : PeerAddr) :
    EncodedOnItsPort.Statement (.start op name addr) :=
  fun _ => ⟨rfl, by simp [Instr.port]⟩

theorem EncodedOnItsPort.rx (D : Bytes) : EncodedOnItsPort.Statement (.rx D) :=
  fun _ => ⟨rfl, by simp [Instr.port]⟩

theorem EncodedOnItsPort.timeout : EncodedOnItsPort.Statement .timeout :=
  fun _ => ⟨rfl, by simp [Instr.port]⟩

theorem EncodedOnItsPort.fault : EncodedOnItsPort.Statement .fault :=
  fun _ => ⟨rfl, by simp [Instr.port]⟩

end Sys2Proof.Laws
end

