-- ==== Sys2Proof/Machine/Script.lean ====
section
/-! DEFINITION. The output lines of the event script (30_encoding.md R83). Tests read them; no step does. -/

namespace Sys2Proof.Machine

/-- A condition's name in a script (30_encoding.md R83, 60_exceptions.md R212). -/
def Condition.text : Condition → Bytes
  | .none => ascii ['N', 'O', 'N', 'E']
  | .timeout => ascii ['T', 'I', 'M', 'E', 'O', 'U', 'T']
  | .uncorrectable => ascii ['U', 'N', 'C', 'O', 'R', 'R', 'E', 'C', 'T', 'A', 'B', 'L', 'E']
  | .mismatch => ascii ['M', 'I', 'S', 'M', 'A', 'T', 'C', 'H']
  | .serverError => ascii ['S', 'E', 'R', 'V', 'E', 'R', '_', 'E', 'R', 'R', 'O', 'R']
  | .noHost => ascii ['N', 'O', '_', 'H', 'O', 'S', 'T']
  | .runt => ascii ['R', 'U', 'N', 'T']
  | .transportFault => ascii ['T', 'R', 'A', 'N', 'S', 'P', 'O', 'R', 'T', '_', 'F', 'A', 'U', 'L', 'T']
  | .retryExhausted => ascii ['R', 'E', 'T', 'R', 'Y', '_', 'E', 'X', 'H', 'A', 'U', 'S', 'T', 'E', 'D']

/-- A printable ASCII byte, which a script's string may hold (30_encoding.md R83). -/
def printable (b : Byte) : Bool :=
  decide (0x20 ≤ b.toNat ∧ b.toNat ≤ 0x7E)

/-- A server's message as a script's string, preceded by a blank (30_encoding.md R83). DEDUCED, safe (assumption log 25): R83's
string cannot hold a byte that is not printable ASCII, and a message with one is left out of the line, as P9 of 95_test_vectors.md
leaves it out; a quote in a message is printable ASCII and is written as it stands. -/
def messageText : Option Bytes → Bytes
  | none => []
  | some msg => if msg.all printable then [0x20] ++ kwQuote ++ msg ++ kwQuote else []

/-- The script line of an output (30_encoding.md R83). The outputs of a codeword run alone have none. -/
def Output.line : Output → Option Bytes
  | .tx B => some (ascii ['=', '>', ' ', 'T', 'X'] ++ encodeHexBytes B)
  | .sinkWrite B => some (ascii ['=', '>', ' ', 'W', 'R', 'I', 'T', 'E'] ++ encodeHexBytes B)
  | .sinkClose => some (ascii ['=', '>', ' ', 'C', 'L', 'O', 'S', 'E'])
  | .report .done => some (ascii ['=', '>', ' ', 'R', 'E', 'P', 'O', 'R', 'T', ' ', 'D', 'o', 'n', 'e'])
  | .report (.error c msg) =>
    some (ascii ['=', '>', ' ', 'R', 'E', 'P', 'O', 'R', 'T', ' ', 'E', 'r', 'r', 'o', 'r', ' '] ++ c.text ++ messageText msg)
  | .report (.log c) => some (ascii ['=', '>', ' ', 'R', 'E', 'P', 'O', 'R', 'T', ' ', 'L', 'o', 'g', ' '] ++ c.text)
  | .codec _ => none

end Sys2Proof.Machine
end

