-- ==== Sys2Proof/Tests/Slice0.lean ====
section
/-! SUPPORT. The model's own tests: ill-formed terms refused, encodings of the spec written out and decoded, one step at a time of
the spec's vectors (95_test_vectors.md, cited as T, K, Q and by section), and for each statement of the certificate that has
hypotheses a state and operands that meet them. -/

namespace Sys2Proof.Tests

open Machine

set_option maxRecDepth 20000

/-! ## Helpers -/

/-- The next state of an outcome, where there is one. -/
def next? (r : Host.Outcome State Fault Refusal) : Option State :=
  match r with
  | .next t => some t
  | _ => none

/-- What an instruction emits from a state that has emitted nothing. -/
def outputs (i : Instr) (s : State) : Option (List Output) :=
  (next? (exec i s)).map (·.outbox)

/-- The ASCII bytes of a script line. -/
def line (s : String) : Bytes :=
  ascii s.toList

/-- A state that awaits the block `e`, for parameters `p`. -/
def waitingFor (p : Params) (e : BlockNo) : State :=
  { State.resetWith p with
    state := .awaitingBlock, expected := e, sinkOpen := true, lastTx := [0x00, 0x01, 0x71, 0x00, 0x00], lastTxValid := true }

/-- A state that awaits block 1 with N_CW = 4, as the vectors take it. -/
def waiting : State :=
  waitingFor (Params.standard 4) 1

/-- The block "HELLO, WORLD!" (95_test_vectors.md 3.5, B1). -/
def hello : Bytes :=
  line "HELLO, WORLD!"

/-- `waiting` after block 1, "HELLO, WORLD!", is held. -/
def waitingTwo : State :=
  { waitingFor (Params.standard 4) 2 with pendValid := true, pendData := hello, pendLen := 13 }

/-- With MAX_RESENDS = 2 and `n` resends. -/
def bounded (n : Nat) : State :=
  { waitingFor { Params.standard 4 with maxResends := .atMost 2 } 1 with resends := n }

/-- The codewords of B1 (95_test_vectors.md 3.5). -/
def helloWords : Bytes :=
  [0x19, 0x53, 0x22, 0xA4, 0x81, 0xCB, 0x27, 0x26, 0xEF, 0xD3, 0x2B, 0x90, 0x80, 0x11, 0x26, 0xA9]

/-- B1. -/
def blockOne : Bytes := [0x00, 0x03, 0x00, 0x01] ++ helloWords

/-- B1x2: two errors in codeword 1. -/
def blockOneDouble : Bytes :=
  [0x00, 0x03, 0x00, 0x01, 0x19, 0x53, 0x22, 0xA4, 0x84, 0xCB, 0x27, 0x26, 0xEF, 0xD3, 0x2B, 0x90, 0x80, 0x11, 0x26, 0xA9]

/-- B2: "AB". -/
def blockTwo : Bytes := [0x00, 0x03, 0x00, 0x02, 0x01, 0x00, 0xA1, 0xA0]

/-- BFFFF: "0123456789abc". -/
def blockFFFF : Bytes :=
  [0x00, 0x03, 0xFF, 0xFF, 0xD5, 0x4C, 0x18, 0x18, 0xA3, 0x8D, 0x9A, 0x99, 0x05, 0x4E, 0x1B, 0x1B, 0xD9, 0x58, 0xB0, 0x1C]

/-- B0: "Z". -/
def blockZero : Bytes := [0x00, 0x03, 0x00, 0x00, 0x00, 0x00, 0x00, 0x2D]

/-! ## WellFormed refuses an ill-formed term for each check -/

theorem test_illFormed_rrq_name : ¬ (Instr.rrq [0x61, 0x00] [0x6F]).WellFormed := by decide
theorem test_illFormed_rrq_mode : ¬ (Instr.rrq [0x61] [0x00]).WellFormed := by decide
theorem test_illFormed_rrqErr_name : ¬ (Instr.rrqErr [0x00] [0x6F]).WellFormed := by decide
theorem test_illFormed_rrqErr_mode : ¬ (Instr.rrqErr [0x61] [0x6F, 0x00]).WellFormed := by decide
theorem test_illFormed_rxOther_data : ¬ (Instr.rxOther 0x00 0x03 0x0001 []).WellFormed := by decide
theorem test_illFormed_rxOther_error : ¬ (Instr.rxOther 0x00 0x05 0x0001 []).WellFormed := by decide
theorem test_illFormed_runt : ¬ (Instr.runt [0x00, 0x03, 0x00, 0x01]).WellFormed := by decide
theorem test_illFormed_start_op : ¬ (Instr.start 0x03 [0x61] .bound).WellFormed := by decide
theorem test_illFormed_start_name : ¬ (Instr.start 0x01 [0x61, 0x00] .bound).WellFormed := by decide

/-! ## Encodings of the spec, written out -/

theorem test_decode_rrq :
    decode Params.default ⟨.sender, [0x00, 0x01, 0x71, 0x00, 0x6F, 0x63, 0x74, 0x65, 0x74, 0x00]⟩ =
      .ok (.rrq [0x71] [0x6F, 0x63, 0x74, 0x65, 0x74]) := by decide
theorem test_decode_rrqErr :
    decode Params.default
        ⟨.sender, [0x00, 0x02, 0x78, 0x2E, 0x62, 0x69, 0x6E, 0x00, 0x6F, 0x63, 0x74, 0x65, 0x74, 0x00]⟩ =
      .ok (.rrqErr [0x78, 0x2E, 0x62, 0x69, 0x6E] [0x6F, 0x63, 0x74, 0x65, 0x74]) := by decide
theorem test_decode_ack : decode Params.default ⟨.sender, [0x00, 0x04, 0xFF, 0xFE]⟩ = .ok (.ack 0xFFFE) := by decide
theorem test_decode_nack : decode Params.default ⟨.sender, [0x00, 0x06, 0x01, 0x00]⟩ = .ok (.nack 0x0100) := by decide
theorem test_decode_error :
    decode Params.default ⟨.transport, [0x00, 0x05, 0x00, 0x01, 0x46, 0x00]⟩ = .ok (.error 0x00 0x00 0x01 [0x46, 0x00]) := by
  decide
theorem test_decode_data :
    decode Params.default ⟨.transport, blockTwo⟩ = .ok (.data 0x00 0x0002 [0x01, 0x00, 0xA1, 0xA0]) := by decide
theorem test_decode_rxOther :
    decode Params.default ⟨.transport, [0xAA, 0x07, 0x12, 0x34, 0x56]⟩ = .ok (.rxOther 0xAA 0x07 0x1234 [0x56]) := by decide
theorem test_decode_runt : decode Params.default ⟨.transport, [0x00, 0x05, 0x00]⟩ = .ok (.runt [0x00, 0x05, 0x00]) := by
  decide
/-- 95_test_vectors.md 3.1: the same codeword under both wire bit maps. -/
theorem test_decode_hamCodeword :
    decode Params.default ⟨.codec, [0x37, 0xD6, 0x68, 0xA4]⟩ = .ok (.hamCodeword 0xA468D637) ∧
    decode { Params.default with wireBitMap := .be } ⟨.codec, [0xA4, 0x68, 0xD6, 0x37]⟩ = .ok (.hamCodeword 0xA468D637) := by
  decide
theorem test_decode_reset : decode Params.default ⟨.script, line "RESET"⟩ = .ok .reset := by decide
theorem test_decode_start :
    decode Params.default ⟨.script, line "START op=2 name=\"x.bin\""⟩ =
      .ok (.start 0x02 [0x78, 0x2E, 0x62, 0x69, 0x6E] .bound) := by decide
theorem test_decode_start_noHost :
    decode Params.default ⟨.script, line "START op=1 name=\"q\" addr=none"⟩ = .ok (.start 0x01 [0x71] .none) := by decide
theorem test_decode_rx :
    decode Params.default ⟨.script, line "RX 00 03 00 02 01 00 A1 A0"⟩ = .ok (.rx blockTwo) := by decide
theorem test_decode_timeout : decode Params.default ⟨.script, line "TIMEOUT"⟩ = .ok .timeout := by decide
theorem test_decode_fault : decode Params.default ⟨.script, line "FAULT"⟩ = .ok .fault := by decide

/-- What is no encoding is refused by name (30_encoding.md R75, R77, R81, R83). -/
theorem test_decode_refuses :
    decode Params.default ⟨.script, line "=> CLOSE"⟩ = .error .notAnEvent ∧
    decode Params.default ⟨.script, line "RX 0"⟩ = .error .badHexBytes ∧
    decode Params.default ⟨.script, line "RX 0A # B1"⟩ = .error .badHexBytes ∧
    decode Params.default ⟨.script, line "TIMEOUT # ignored"⟩ = .error .notAnEvent ∧
    decode Params.default ⟨.script, line "START op=3 name=\"a\""⟩ = .error .badStartLine ∧
    decode Params.default ⟨.sender, [0x00, 0x03, 0x00, 0x01]⟩ = .error .notSentOpcode ∧
    decode Params.default ⟨.sender, [0x00, 0x01, 0x71, 0x00, 0x6F]⟩ = .error .badRequest ∧
    decode Params.default ⟨.sender, [0x00, 0x04, 0x00]⟩ = .error .badAckLength ∧
    decode Params.default ⟨.codec, [0x00, 0x00, 0x00]⟩ = .error .badCodewordLength := by decide

/-! ## The opcode table's words -/

/-- The rows' bits as the table gives them (opcode_table.json: match of the packet rows, 32 bits for a codeword), the bits above
them zero (log 15). -/
theorem test_tableWords :
    decodeTableWord 16 0x0001 = some (.rrq [] []) ∧ decodeTableWord 16 0x0002 = some (.rrqErr [] []) ∧ decodeTableWord 16 0x0004 = some (.ack 0) ∧
    decodeTableWord 16 0x0006 = some (.nack 0) ∧ decodeTableWord 16 0x0005 = some (.error 0 0 0 []) ∧
    decodeTableWord 16 0x0003 = some (.data 0 0 []) ∧ decodeTableWord 16 0x0000 = some (.rxOther 0 0 0 []) ∧
    decodeTableWord 32 0xA468D637 = some (.hamCodeword 0xA468D637) ∧ decodeTableWord 0 0 = some (.runt []) := by decide

/-! ## One step of each instruction, from the spec's vectors -/

/-- 43_session.md R176: the request for "test.txt" is these 17 bytes. -/
theorem test_rrq :
    outputs (.rrq (line "test.txt") (line "octet")) State.reset =
      some [.tx [0x00, 0x01, 0x74, 0x65, 0x73, 0x74, 0x2E, 0x74, 0x78, 0x74, 0x00, 0x6F, 0x63, 0x74, 0x65, 0x74, 0x00]] := by
  decide
/-- 43_session.md R195, the example's request. -/
theorem test_rrqErr :
    outputs (.rrqErr (line "x.bin") (line "octet")) State.reset =
      some [.tx [0x00, 0x02, 0x78, 0x2E, 0x62, 0x69, 0x6E, 0x00, 0x6F, 0x63, 0x74, 0x65, 0x74, 0x00]] := by decide
/-- 30_encoding.md R77; no register is written (10_state.md R32). -/
theorem test_ack :
    next? (exec (.ack 0xFF00) waitingTwo) = some { waitingTwo with outbox := [.tx [0x00, 0x04, 0xFF, 0x00]] } := by decide
theorem test_nack : outputs (.nack 0x0001) State.reset = some [.tx [0x00, 0x06, 0x00, 0x01]] := by decide

/-- Q9, and the message's end without a 00 byte (30_encoding.md R79). -/
theorem test_error :
    outputs (.error 0x00 0x00 0x01 (line "File not found" ++ [0x00])) waitingTwo =
      some [.sinkClose, .report (.error .serverError (some (line "File not found")))] := by decide
theorem test_error_keepsNoPending :
    (next? (exec (.error 0x00 0x00 0x01 [0x41]) waitingTwo)).map
        (fun t => (t.state, t.pendValid, t.errKind, t.errMsg, t.nackValid)) =
      some (.error, false, .serverError, [0x41], false) := by decide

/-- Q8. -/
theorem test_data_terminal :
    outputs (.data 0x00 0x0002 [0x01, 0x00, 0xA1, 0xA0]) waitingTwo =
      some [.sinkWrite hello, .sinkWrite [0x41, 0x42, 0x00], .tx [0x00, 0x04, 0x00, 0x02], .sinkClose, .report .done] := by
  decide
/-- Q4. -/
theorem test_data_full :
    (next? (exec (.data 0x00 0x0001 helloWords) waiting)).map
        (fun t => (t.outbox, t.expected, t.pendValid, t.pendLen, t.pendData)) =
      some ([.tx [0x00, 0x04, 0x00, 0x01]], 0x0002, true, 13, hello) := by decide

/-- Q13's datagram under opcode 4: decoded as DATA, a duplicate ACK of 0xFFFF. -/
theorem test_rxOther :
    (next? (exec (.rxOther 0x00 0x04 0x0005 [0x01, 0x00, 0xA1, 0xA0]) (waitingFor (Params.standard 4) 0))).map
        (fun t => (t.outbox, t.expected, t.nackCache, t.nackValid)) =
      some ([.tx [0x00, 0x04, 0xFF, 0xFF]], 0x0000, 0x0005, true) := by decide

/-- Q3. -/
theorem test_runt : next? (exec (.runt [0x00, 0x03, 0x00]) waiting) = some waiting := by decide

/-- 95_test_vectors.md 3.2 row 0, 3.3 rows 0,1 and 0,1,2 (CORRECT_PARITY). -/
theorem test_hamCodeword :
    outputs (.hamCodeword 0xA468D636) State.reset =
      some [.codec { status := .corrected, frag := some 0x1234567, checks := 0b100001, syndrome := 1, pos := some 0 }] ∧
    outputs (.hamCodeword 0xA468D634) State.reset =
      some [.codec { status := .uncorrectable, frag := none, checks := 0b000011, syndrome := 3, pos := none }] ∧
    outputs (.hamCodeword 0xA468D630) State.reset =
      some [.codec { status := .corrected, frag := some 0x1234566, checks := 0b100000, syndrome := 0, pos := some 31 }] := by
  decide
/-- 95_test_vectors.md 3.2, the last row under REJECT. -/
theorem test_hamCodeword_reject :
    outputs (.hamCodeword 0x2468D637) (State.resetWith { Params.standard 4 with syndromeZero := .reject }) =
      some [.codec { status := .uncorrectable, frag := none, checks := 0b100000, syndrome := 0, pos := none }] := by decide

/-- Q15. -/
theorem test_reset :
    (next? (exec .reset waitingTwo)).map (fun t => (t.state, t.outbox, t.pendData, t.lastTx, t.sinkOpen)) =
      some (.idle, [], List.replicate 13 0x00, [], false) := by decide

/-- Q1. -/
theorem test_start :
    (next? (exec (.start 0x01 (line "test.txt") .bound) State.reset)).map
        (fun t => (t.outbox, t.state, t.expected, t.sinkOpen)) =
      some
        ([.tx [0x00, 0x01, 0x74, 0x65, 0x73, 0x74, 0x2E, 0x74, 0x78, 0x74, 0x00, 0x6F, 0x63, 0x74, 0x65, 0x74, 0x00]],
          .awaitingBlock, 0x0001, true) := by decide
/-- Q2. -/
theorem test_start_noHost :
    (next? (exec (.start 0x01 [0x71] .none) State.reset)).map
        (fun t => (t.outbox, t.state, t.errKind, t.sinkOpen, t.lastTxValid)) =
      some ([.report (.error .noHost none)], .error, .noHost, false, false) := by decide

/-- Q7. -/
theorem test_rx_uncorrectable :
    (next? (exec (.rx blockOneDouble) waiting)).map (fun t => (t.outbox, t.expected, t.nackCache)) =
      some ([.tx [0x00, 0x06, 0x00, 0x01]], 0x0001, 0x0001) := by decide
/-- K11 in an RX: 24 bytes are cut to 20. -/
theorem test_rx_cut :
    outputs (.rx (blockOne ++ [0x07, 0x00, 0x00, 0x80])) waiting = some [.tx [0x00, 0x04, 0x00, 0x01]] := by decide

/-- Q10. -/
theorem test_timeout :
    (next? (exec .timeout waiting)).map (fun t => (t.outbox, t.resends)) =
      some ([.tx [0x00, 0x01, 0x71, 0x00, 0x00]], 1) := by decide
/-- Q12. -/
theorem test_timeout_exhausted :
    outputs .timeout (bounded 2) = some [.sinkClose, .report (.error .retryExhausted none)] := by decide

/-- Q11. -/
theorem test_fault :
    outputs .fault waiting = some [.report (.log .transportFault), .tx [0x00, 0x01, 0x71, 0x00, 0x00]] := by decide

/-! ## The units -/

/-- T10 and T3 of 95_test_vectors.md 3.4, in both packings and both carry orders. -/
theorem test_deinterleave :
    deinterleave (Params.standard 4) [0x1211532, 0x1313CB0, 0x0815D3D, 0x1493110] = hello ∧
    deinterleave { Params.standard 4 with packing := .stream } [0x1211532, 0x1313CB0, 0x0815D3D, 0x1493110] =
      [0x48, 0x45, 0x4C, 0x93, 0x13, 0xCB, 0x02, 0x05, 0x74, 0xF5, 0x49, 0x31, 0x10] ∧
    (deinterleave (Params.standard 4) [1, 2, 3, 0]).getD 12 0 = 0x36 ∧
    (deinterleave { Params.standard 4 with carryOrder := .firstIsMsb } [1, 2, 3, 0]).getD 12 0 = 0x6C := by decide

/-- K3, K5 and K7 of 95_test_vectors.md 3.5. -/
theorem test_packetDecode :
    (packetDecode (Params.standard 4) Deint.clear blockOneDouble).1 = .fail 1 ∧
    (packetDecode (Params.standard 4) Deint.clear ([0x00, 0x03, 0x00, 0x02] ++ List.replicate 16 0x00)).1 =
      .payload [0x00, 0x03, 0x00, 0x02] (List.replicate 13 0x00) 0 ∧
    (packetDecode (Params.standard 4) Deint.clear [0x00, 0x03, 0x00, 0x07]).1 = .payload [0x00, 0x03, 0x00, 0x07] [] 0 := by
  decide

/-- 95_test_vectors.md 3.1, and B1 from the matching encoder of section 2. -/
theorem test_encoder : encodeFrag 0x1234567 = 0xA468D637 ∧ encodeBlock 1 hello = blockOne := by decide

/-- The message of Q9 cut to its first letter is a string; that of 95_test_vectors.md P9 is left out. -/
theorem test_outputLines_message :
    messageText (some (line "F")) = line " \"F\"" ∧ messageText (some helloWords) = [] := by decide

/-- Q8's last two lines in the script's words (30_encoding.md R83). -/
theorem test_outputLines :
    (Output.tx [0x00, 0x04, 0x00, 0x02]).line = some (line "=> TX 00 04 00 02") ∧
    (Output.report (.error .serverError (some (line "F")))).line = some (line "=> REPORT Error SERVER_ERROR \"F\"") := by
  decide

/-- A table word, fetched, is the first instruction after reset. -/
theorem test_withFetchWord :
    (next? (step (State.reset.withFetchWord 16 0x0004))).map (fun t => (t.outbox, t.inbox)) =
      some ([.tx [0x00, 0x04, 0x00, 0x00]], []) := by decide

/-! ## The hypotheses of the statements are met -/

/-- `waiting` with a datagram at the transport. -/
def waitingWith (D : Bytes) : State :=
  { waiting with inbox := [⟨.transport, D⟩] }

theorem witness_EveryStepKeepsTheInvariant :
    (waitingWith blockOne).Inv ∧ ∃ t, step (waitingWith blockOne) = .next t := ⟨by decide, _, rfl⟩

theorem witness_NoStepChangesTheParameters : ∃ t, step (waitingWith blockOne) = .next t := ⟨_, rfl⟩

theorem witness_StepsAppendAtMostOneDatagram : ∃ t, step (waitingWith blockTwo) = .next t := ⟨_, rfl⟩

theorem witness_ExpectedAdvancesOnlyOnAcceptance :
    Instr.rx blockOne ≠ .reset ∧ (∀ op name addr, Instr.rx blockOne ≠ .start op name addr) ∧
      ∃ t, exec (.rx blockOne) waiting = .next t ∧ t.expected ≠ waiting.expected :=
  ⟨by decide, fun _ _ _ => Instr.noConfusion, _, rfl, by decide⟩

/-- A run ended in `Error`, and one ended in `Done`; an event then, and a RESET. -/
theorem witness_OnlyResetLeavesDoneAndError :
    { waiting with state := .error : State }.state.ended = true ∧ { waiting with state := .done : State }.state.ended = true ∧
      Instr.timeout ≠ .reset ∧ (∃ t, exec .timeout { waiting with state := .error } = .next t) ∧
      (∃ t, exec .timeout { waiting with state := .done } = .next t) ∧ ∃ t, exec .reset waiting = .next t :=
  ⟨by decide, by decide, by decide, ⟨_, rfl⟩, ⟨_, rfl⟩, ⟨_, rfl⟩⟩

theorem witness_OnlyEventsReadOrWriteRegisters :
    hostEvent (.ack 0x0001) = false ∧ hostEvent (.nack 0x0001) = false ∧ hostEvent (.rrq [0x71] []) = false ∧
      hostEvent (.rrqErr [0x71] []) = false ∧ hostEvent (.hamCodeword 0xA468D637) = false := by decide

theorem witness_IgnoredEventsChangeNothing :
    wireEvent (.rx blockOne) = true ∧ State.reset.state = .idle ∧ ValidStart 0x02 [0x71] ∧ waiting.state = .awaitingBlock := by
  decide

theorem witness_TransientStatesRefuseEvents :
    { waiting with state := .nacking : State }.state.resting = false ∧ wireEvent .fault = true ∧ ValidStart 0x01 [] := by decide

theorem witness_InvalidStartIsRefused :
    ¬ (((0x03 : Byte) = 1 ∨ (0x03 : Byte) = 2) ∧ (0 : Byte) ∉ ([0x71] : Bytes)) ∧
    ¬ (((0x01 : Byte) = 1 ∨ (0x01 : Byte) = 2) ∧ (0 : Byte) ∉ ([0x00] : Bytes)) := by decide

theorem witness_StartSendsTheRequest :
    State.reset.state = .idle ∧ ((0x02 : Byte) = 1 ∨ (0x02 : Byte) = 2) ∧ (0 : Byte) ∉ ([0x71] : Bytes) := by decide

theorem witness_StartWithoutAddressIsFatal :
    State.reset.state = .idle ∧ ((0x01 : Byte) = 1 ∨ (0x01 : Byte) = 2) ∧ (0 : Byte) ∉ ([] : Bytes) := by decide

/-- MAX_RESENDS unbounded; bounded by 2 with one resend left; bounded by 2 and reached. -/
theorem witness_TimeoutResendsOrGivesUp :
    (waiting.state = .awaitingBlock ∧ waiting.cfg.maxResends = .unbounded) ∧
    ((bounded 1).state = .awaitingBlock ∧ (bounded 1).cfg.maxResends = .atMost 2 ∧ (bounded 1).resends < 2) ∧
    ((bounded 2).state = .awaitingBlock ∧ (bounded 2).cfg.maxResends = .atMost 2 ∧ 2 ≤ (bounded 2).resends) := by decide

theorem witness_FaultIsLoggedThenRetried :
    waiting.state = .awaitingBlock ∧ waiting.cfg.maxResends = .unbounded ∧ (bounded 1).state = .awaitingBlock ∧
      (bounded 1).cfg.maxResends = .atMost 2 ∧ (bounded 1).resends < 2 := by decide

/-- The longest runt, and the empty datagram. -/
theorem witness_RuntIsDiscarded :
    waiting.state = .awaitingBlock ∧ ([0x00, 0x03, 0x00] : Bytes).length < 4 ∧ ([] : Bytes).length < 4 := by decide

/-- A message of exactly 4 * N_CW bytes, and an empty one. -/
theorem witness_ErrorPacketEndsTheTransfer :
    waitingTwo.state = .awaitingBlock ∧ helloWords.length ≤ 4 * waitingTwo.cfg.nCw ∧
      ([] : Bytes).length ≤ 4 * waitingTwo.cfg.nCw := by decide

/-- DATA, RX_OTHER and RX. -/
theorem witness_UncorrectableDatagramIsNacked :
    dataDatagram (.data 0x00 0x0001 (blockOneDouble.drop 4)) = some blockOneDouble ∧
    dataDatagram (.rxOther 0x00 0x07 0x0001 [0x34, 0xD6, 0x68, 0xA4]) = some [0x00, 0x07, 0x00, 0x01, 0x34, 0xD6, 0x68, 0xA4] ∧
    dataDatagram (.rx blockOneDouble) = some blockOneDouble ∧ waiting.state = .awaitingBlock ∧
    blockOneDouble.length ≤ waiting.cfg.maxDgram ∧
    (packetDecode waiting.cfg Deint.clear blockOneDouble).1 = .fail 1 ∧
    (packetDecode waiting.cfg Deint.clear [0x00, 0x07, 0x00, 0x01, 0x34, 0xD6, 0x68, 0xA4]).1 = .fail 0 := by decide

theorem witness_MismatchGetsTheDuplicateAck :
    dataDatagram (.rx blockTwo) = some blockTwo ∧ waiting.state = .awaitingBlock ∧
    blockTwo.length ≤ waiting.cfg.maxDgram ∧
    (packetDecode waiting.cfg Deint.clear blockTwo).1 = .payload [0x00, 0x03, 0x00, 0x02] [0x41, 0x42, 0x00] 3 ∧
    blockOf (blockTwo.getD 2 0) (blockTwo.getD 3 0) ≠ waiting.expected := by decide

theorem witness_MatchingFullBlockIsAccepted :
    dataDatagram (.data 0x00 0x0001 helloWords) = some blockOne ∧ waiting.state = .awaitingBlock ∧
    blockOne.length ≤ waiting.cfg.maxDgram ∧
    (packetDecode waiting.cfg Deint.clear blockOne).1 =
      .payload [0x00, 0x03, 0x00, 0x01] hello waiting.cfg.fullDataBytes ∧
    blockOf (blockOne.getD 2 0) (blockOne.getD 3 0) = waiting.expected := by decide

theorem witness_MatchingShortBlockEndsTheTransfer :
    dataDatagram (.rx blockTwo) = some blockTwo ∧ waitingTwo.state = .awaitingBlock ∧
    blockTwo.length ≤ waitingTwo.cfg.maxDgram ∧
    (packetDecode waitingTwo.cfg Deint.clear blockTwo).1 = .payload [0x00, 0x03, 0x00, 0x02] [0x41, 0x42, 0x00] 3 ∧
    blockOf (blockTwo.getD 2 0) (blockTwo.getD 3 0) = waitingTwo.expected ∧ 3 < waitingTwo.cfg.fullDataBytes := by decide

/-- One datagram for each condition; those of 3 and of 4 bytes are the runt's boundary. -/
theorem witness_RxTakesTheFirstCondition :
    waiting.state = .awaitingBlock ∧ blockOne.length ≤ waiting.cfg.maxDgram ∧ (∃ t, exec (.rx blockOne) waiting = .next t) ∧
    rxCondition waiting [0x00, 0x05, 0x00] = .runt ∧ rxCondition waiting [0x00, 0x05, 0x00, 0x00] = .serverError ∧
    rxCondition waiting blockOneDouble = .uncorrectable ∧ rxCondition waiting [0x00, 0x03, 0x00, 0x02] = .mismatch ∧
    rxCondition waiting blockOne = .none :=
  ⟨by decide, by decide, ⟨_, rfl⟩, by decide, by decide, by decide, by decide, by decide⟩

theorem witness_HeaderBytesZeroAndOneAreUnchecked : (0x07 : Byte) ≠ 0x05 := by decide

theorem witness_TrailingBytesAreIgnored :
    helloWords.length % 4 = 0 ∧ ([0xEE, 0xEE, 0xEE] : Bytes).length < 4 := by decide

theorem witness_TheFileGrowsByEachAcceptedBlock :
    dataDatagram (.rx blockOne) = some blockOne ∧ waiting.state = .awaitingBlock ∧ blockOne.length ≤ waiting.cfg.maxDgram ∧
    (∃ t, exec (.rx blockOne) waiting = .next t) ∧ (∃ t, exec (.rx blockOneDouble) waiting = .next t) ∧
    (packetDecode waiting.cfg Deint.clear blockOneDouble).1 = .fail 1 ∧
    (packetDecode waiting.cfg Deint.clear blockOne).1 = .payload [0x00, 0x03, 0x00, 0x01] hello 13 :=
  ⟨by decide, by decide, by decide, ⟨_, rfl⟩, ⟨_, rfl⟩, by decide, by decide⟩

theorem witness_SinkOutputsNeedAnOpenSink :
    (waitingWith [0x00, 0x05, 0x00, 0x00]).Inv ∧
      ∃ t, step (waitingWith [0x00, 0x05, 0x00, 0x00]) = .next t ∧
        t.outbox = (waitingWith [0x00, 0x05, 0x00, 0x00]).outbox ++
          [.sinkClose, .report (.error .serverError (some []))] :=
  ⟨by decide, _, rfl, rfl⟩

/-- 95_test_vectors.md P4. -/
theorem witness_BlockZeroFollowsBlockFFFF :
    dataDatagram (.rx blockFFFF) = some blockFFFF ∧ dataDatagram (.rx blockZero) = some blockZero ∧
    (waitingFor (Params.standard 4) 0xFFFF).state = .awaitingBlock ∧ blockFFFF.length ≤ (Params.standard 4).maxDgram ∧
    blockZero.length ≤ (Params.standard 4).maxDgram ∧
    (packetDecode (Params.standard 4) Deint.clear blockFFFF).1 =
      .payload [0x00, 0x03, 0xFF, 0xFF] (line "0123456789abc") (Params.standard 4).fullDataBytes ∧
    (packetDecode (Params.standard 4) Deint.clear blockZero).1 = .payload [0x00, 0x03, 0x00, 0x00] [0x5A, 0x00, 0x00] 3 ∧
    blockOf (blockFFFF.getD 2 0) (blockFFFF.getD 3 0) = 0xFFFF ∧ blockOf (blockZero.getD 2 0) (blockZero.getD 3 0) = 0x0000 ∧
    ∃ t u, exec (.rx blockFFFF) (waitingFor (Params.standard 4) 0xFFFF) = .next t ∧ exec (.rx blockZero) t = .next u :=
  ⟨by decide, by decide, by decide, by decide, by decide, by decide, by decide, by decide, by decide, _, _, rfl, rfl⟩

theorem witness_AckRowsSendTheirDatagram : (0xFF01 : BlockNo) = blockOf 0xFF 0x01 := by decide

/-- The first and the last position. -/
theorem witness_CodewordRowEmitsTheDecodedFragment : (0 : Nat) ≤ 30 ∧ (30 : Nat) ≤ 30 := by decide

theorem witness_StepRunsTheDecodedInstruction :
    (waitingWith blockTwo).inbox = ⟨.transport, blockTwo⟩ :: [] ∧
    decode (waitingWith blockTwo).cfg ⟨.transport, blockTwo⟩ = .ok (.data 0x00 0x0002 [0x01, 0x00, 0xA1, 0xA0]) ∧
    (Instr.data 0x00 0x0002 [0x01, 0x00, 0xA1, 0xA0]).WellFormed := by decide

theorem witness_StepWaitsOrRefusesOtherwise :
    waiting.inbox = [] ∧ { waiting with inbox := [⟨.script, []⟩] : State }.inbox = ⟨.script, []⟩ :: [] ∧
    decode waiting.cfg ⟨.script, []⟩ = .error .notAnEvent := by decide

theorem witness_DecodingAnEncodingGivesTheInstruction : (Instr.start 0x02 (line "x.bin") .none).WellFormed := by decide

theorem witness_EncodingADecodingGivesTheInput :
    decode Params.default ⟨.script, line "RX 0A"⟩ = .ok (.rx [0x0A]) := by decide

theorem witness_DecodedInstructionsAreWellFormed :
    decode Params.default ⟨.sender, [0x00, 0x01, 0x00, 0x00]⟩ = .ok (.rrq [] []) := by decide

/-- Three bytes, and none. -/
theorem witness_DatagramsAreClassifiedByLengthAndByteOne :
    ([0x00, 0x05, 0x00] : Bytes).length < 4 ∧ ([] : Bytes).length < 4 := by decide

theorem witness_CodewordsAreAssembledFromWireBytes : (0 : Nat) < 32 ∧ (31 : Nat) < 32 := by decide

theorem witness_ChecksAreParitiesAndTheSyndromeTheirSum : (5 : Nat) < 6 ∧ (4 : Nat) < 5 := by decide

/-- A valid codeword; a pattern of two errors; the positions at the ends. -/
theorem witness_TheSyndromeNamesTheError :
    ValidCodeword 0xA468D637 ∧ (0 : Nat) ≤ 30 ∧ (30 : Nat) ≤ 30 ∧ popcount (0x80000001 : Codeword) % 2 = 0 ∧
    popcount (0x80000001 : Codeword) = 2 := by decide

theorem witness_SingleErrorsAreCorrectedDoubleErrorsDetected :
    ValidCodeword 0xA468D637 ∧ (30 : Nat) ≤ 30 ∧ (Params.standard 4).syndromeZero = .correctParity ∧
    { Params.standard 4 with syndromeZero := .reject : Params }.syndromeZero = .reject ∧ (0 : Nat) < 32 ∧ (31 : Nat) < 32 ∧
    (0 : Nat) ≠ 31 := by decide

/-- A word for each of the four cases (95_test_vectors.md 3.1-3.3). -/
theorem witness_HamDecodeFollowsItsFourCases :
    (syndrome 0xA468D637 = 0 ∧ check 0xA468D637 5 = false) ∧ (syndrome 0xA468D636 ≠ 0 ∧ check 0xA468D636 5 = true) ∧
    (syndrome 0x2468D637 = 0 ∧ check 0x2468D637 5 = true) ∧ (syndrome 0xA468D634 ≠ 0 ∧ check 0xA468D634 5 = false) ∧
    (Params.standard 4).syndromeZero = .correctParity ∧
    { Params.standard 4 with syndromeZero := .reject : Params }.syndromeZero = .reject := by decide

/-- Three errors with `s = 0` and with `s = 1`, four errors with `s = 0`, two errors. -/
theorem witness_HeavierErrorsFollowTheSameTable :
    ValidCodeword 0xA468D637 ∧ (popcount (0x00000007 : Codeword) % 2 = 1 ∧ syndrome 0x00000007 = 0) ∧
    (popcount (0x00000054 : Codeword) % 2 = 1 ∧ syndrome 0x00000054 ≠ 0) ∧
    (popcount (0x80000007 : Codeword) % 2 = 0 ∧ syndrome 0x80000007 = 0) ∧
    (popcount (0x00000003 : Codeword) % 2 = 0 ∧ syndrome 0x00000003 ≠ 0) := by decide

theorem witness_ExtractReadsTheDataPositions :
    (25 : Nat) < 26 ∧
    ∀ q, q ∉ [0, 1, 3, 7, 15, 31] → (0x00000000 : Codeword).getLsbD q = (0x8000808B : Codeword).getLsbD q := by
  refine ⟨by decide, fun q hq => ?_⟩
  by_cases h : q < 32
  · have all : ∀ q : Fin 32, q.val ∉ [0, 1, 3, 7, 15, 31] →
        (0x00000000 : Codeword).getLsbD q.val = (0x8000808B : Codeword).getLsbD q.val := by decide
    exact all ⟨q, h⟩ hq
  · rw [BitVec.getLsbD_of_ge _ _ (by omega), BitVec.getLsbD_of_ge _ _ (by omega)]

/-- A complete group, its last fragment, in both carry orders. -/
theorem witness_SeparateCarryLayout :
    (Params.standard 4).packing = .separateCarry ∧ (3 : Nat) < 4 ∧ ([1, 2, 3, 4] : List Frag)[4 * 0 + 3]? = some 4 ∧
    4 * 0 + 4 ≤ ([1, 2, 3, 4] : List Frag).length ∧ (Params.standard 4).carryOrder = .firstIsLsb ∧
    { Params.standard 4 with carryOrder := .firstIsMsb : Params }.carryOrder = .firstIsMsb := by decide

theorem witness_StreamLayout :
    { Params.standard 4 with packing := .stream : Params }.packing = .stream ∧ (7 : Nat) < 8 ∧
    12 < (deinterleave { Params.standard 4 with packing := .stream } [1, 2, 3, 4]).length := by decide

theorem witness_WholeGroupsAreABijection : hello.length = 13 * 1 := by decide

/-- A datagram that fails, and one that does not. -/
theorem witness_PacketDecodeStopsAtTheFirstUncorrectable :
    (packetDecode (Params.standard 4) Deint.clear blockOneDouble).1 = .fail 1 ∧
    (codewordsOf .le (blockTwo.drop 4)).map (fun cw => (hamDecode (Params.standard 4) cw).frag) =
      ([0x1050800] : List Frag).map some := by decide

/-- A datagram without codewords, and the last codeword of four. -/
theorem witness_CodewordsSitAtOffsetsOfFour :
    4 ≤ ([0x00, 0x03, 0x00, 0x07] : Bytes).length ∧ 4 ≤ blockOne.length ∧ 3 < (blockOne.length - 4) / 4 := by decide

theorem witness_TrailingZerosIsTheLargestRun :
    trailingZeros [0x41, 0x00] = 1 ∧ ([0x41, 0x00] : Bytes).length - 1 ≤ 1 ∧ 1 < ([0x41, 0x00] : Bytes).length ∧
    (1 : Nat) ≤ ([0x41, 0x00] : Bytes).length := by decide

/-- A full block of zero bytes, a full block of others, and a short one (95_test_vectors.md K5, K1, K2). -/
theorem witness_TerminalExactlyWhenShortOrAllZero :
    1 ≤ (Params.standard 4).nCw ∧ (Params.standard 4).trimThreshold = (Params.standard 4).fullDataBytes ∧
    4 ≤ blockOne.length ∧ blockOne.length ≤ (Params.standard 4).maxDgram ∧
    (packetDecode (Params.standard 4) Deint.clear blockOne).1 = .payload [0x00, 0x03, 0x00, 0x01] hello 13 ∧
    (packetDecode (Params.standard 4) Deint.clear blockTwo).1 = .payload [0x00, 0x03, 0x00, 0x02] [0x41, 0x42, 0x00] 3 ∧
    (packetDecode (Params.standard 4) Deint.clear ([0x00, 0x03, 0x00, 0x02] ++ List.replicate 16 0x00)).1 =
      .payload [0x00, 0x03, 0x00, 0x02] (List.replicate 13 0x00) 0 := by decide

theorem witness_AnEncodedBlockDecodesToItsBytes :
    (Params.standard 4).wireBitMap = .le ∧ (Params.standard 4).packing = .separateCarry ∧
    (Params.standard 4).carryOrder = .firstIsLsb := by decide

/-- With N_CW = 1 (3 bytes a block), the file "AB": its one chunk fills a block and is not all zero. -/
theorem witness_AnEncodedFileIsReceived :
    let s := { State.resetWith (Params.standard 1) with
      inbox := encode (Params.standard 1) (.start 0x01 [0x71] .bound) ::
        (encodeFile (Params.standard 1) [0x41, 0x42]).map fun D => { port := .transport, bytes := D } }
    1 ≤ 1 ∧ s.cfg = Params.standard 1 ∧ s.state = .idle ∧ (0 : Byte) ∉ ([0x71] : Bytes) ∧
    (∀ c, (blockFrags ((([0x41, 0x42] : Bytes).drop (c * s.cfg.fullDataBytes)).take s.cfg.fullDataBytes) (1 + 1)).length = 1 →
      ∃ b ∈ (([0x41, 0x42] : Bytes).drop (c * s.cfg.fullDataBytes)).take s.cfg.fullDataBytes, b ≠ 0x00) := by
  refine ⟨by decide, rfl, rfl, by decide, fun c h => ?_⟩
  cases c with
  | zero => exact ⟨0x41, by decide, by decide⟩
  | succ c =>
    rw [List.drop_eq_nil_of_le (by show 2 ≤ (c + 1) * 3; omega)] at h
    exact absurd h (by decide)

end Sys2Proof.Tests
end

section
/-! The byte sink (10_state.md R27, R43): which operations touch it, and that none but the end of a transfer closes it. -/

namespace Sys2Proof.Machine

/-! ## What a transition does to the sink -/

/-- Going from `s` to `t` emits nothing for the sink. -/
def State.SparesSink (s t : State) : Prop :=
  ∃ os, t.outbox = s.outbox ++ os ∧ os.any Output.isSink = false

/-- Going from `s` to `t` closes the sink at most once, and `SINK_OPEN` is 0 in `t` if it does (10_state.md R27). -/
def State.ClosesSinkOnce (s t : State) : Prop :=
  ∃ os, t.outbox = s.outbox ++ os ∧ os.countP (fun o => o = .sinkClose) ≤ 1 ∧ (Output.sinkClose ∈ os → t.sinkOpen = false)

theorem not_sinkClose_mem_of_any_isSink {os : List Output} (h : os.any Output.isSink = false) : Output.sinkClose ∉ os :=
  fun hmem => List.any_eq_false.1 h _ hmem rfl

theorem countP_sinkClose_eq_zero {os : List Output} (h : Output.sinkClose ∉ os) :
    os.countP (fun o => o = .sinkClose) = 0 :=
  List.countP_eq_zero.2 fun _ ho hclose => h (of_decide_eq_true hclose ▸ ho)

theorem not_sinkClose_mem_heldWrite (s : State) : Output.sinkClose ∉ heldWrite s := by
  unfold heldWrite; split <;> simp

section
variable {s t u : State}

theorem State.SparesSink.of_outbox_eq (h : t.outbox = s.outbox) : s.SparesSink t :=
  ⟨[], by simp [h], rfl⟩

theorem State.SparesSink.emit {o : Output} (h : o.isSink = false) : s.SparesSink (s.emit o) :=
  ⟨[o], rfl, by simp [h]⟩

theorem State.SparesSink.trans (hst : s.SparesSink t) (htu : t.SparesSink u) : s.SparesSink u := by
  obtain ⟨os, hos, hquiet⟩ := hst
  obtain ⟨os', hos', hquiet'⟩ := htu
  exact ⟨os ++ os', by rw [hos', hos, List.append_assoc], by simp only [List.any_append, hquiet, hquiet', Bool.or_self]⟩

/-- Outputs without a close close nothing. -/
theorem State.ClosesSinkOnce.of_not_mem {os : List Output} (hos : t.outbox = s.outbox ++ os)
    (h : Output.sinkClose ∉ os) : s.ClosesSinkOnce t :=
  ⟨os, hos, by simp [countP_sinkClose_eq_zero h], fun hmem => absurd hmem h⟩

/-- A last close, with a report after it, that leaves `SINK_OPEN` at 0. -/
theorem State.ClosesSinkOnce.of_close_report {os : List Output} {r : Report}
    (hos : t.outbox = s.outbox ++ (os ++ [.sinkClose, .report r])) (h : Output.sinkClose ∉ os) (ht : t.sinkOpen = false) :
    s.ClosesSinkOnce t :=
  ⟨_, hos, by simp [List.countP_append, countP_sinkClose_eq_zero h], fun _ => ht⟩

theorem State.SparesSink.closesSinkOnce (h : s.SparesSink t) : s.ClosesSinkOnce t := by
  obtain ⟨os, hos, hquiet⟩ := h
  exact .of_not_mem hos (not_sinkClose_mem_of_any_isSink hquiet)

/-- What spares the sink may come before. -/
theorem State.SparesSink.trans_closesSinkOnce (hst : s.SparesSink t) (htu : t.ClosesSinkOnce u) : s.ClosesSinkOnce u := by
  obtain ⟨os, hos, hquiet⟩ := hst
  obtain ⟨os', hos', hcount, hclosed⟩ := htu
  have hnot : Output.sinkClose ∉ os := not_sinkClose_mem_of_any_isSink hquiet
  refine ⟨os ++ os', by rw [hos', hos, List.append_assoc], ?_, fun hmem => ?_⟩
  · simpa [List.countP_append, countP_sinkClose_eq_zero hnot] using hcount
  · exact hclosed ((List.mem_append.1 hmem).resolve_left hnot)

end

/-! ## The operations of `AwaitingBlock` -/

section
variable (s : State)

theorem State.clearResends_sparesSink : s.SparesSink s.clearResends :=
  .of_outbox_eq rfl

theorem State.enterError_closesSinkOnce (c : Condition) (msg : Option Bytes) : s.ClosesSinkOnce (s.enterError c msg) :=
  .of_close_report (os := []) (by rw [State.enterError_eq]; rfl) (by simp) (by rw [State.enterError_eq])

theorem State.timeoutStep_closesSinkOnce : s.ClosesSinkOnce s.timeoutStep := by
  cases h : s.cfg.maxResends.reached s.resends with
  | true => rw [State.timeoutStep_of_reached s h]; exact s.enterError_closesSinkOnce _ _
  | false => rw [State.timeoutStep_of_not_reached s h]; exact .of_not_mem rfl (by simp)

theorem State.handleResult_closesSinkOnce (r : PacketResult) : s.ClosesSinkOnce (s.handleResult r) := by
  have hheld := not_sinkClose_mem_heldWrite s
  cases r with
  | fail k => exact .of_not_mem (congrArg State.outbox s.sendNack_eq) (by simp)
  | payload header out len =>
    simp only [State.handleResult]
    split
    · exact .of_not_mem (congrArg State.outbox s.dupAck_eq) (by simp)
    · split
      · rw [State.acceptFull_eq]
        exact .of_not_mem (List.append_assoc ..) (by simp [hheld])
      · rw [State.acceptTerminal_eq]
        exact .of_close_report
          (os := heldWrite s ++ [.sinkWrite ((overwrite s.pendData out).take len), .tx (ackBytes s.expected)])
          (r := .done) (by simp) (by simp [hheld]) rfl

theorem State.dataPath_closesSinkOnce (D : Bytes) : s.ClosesSinkOnce (s.dataPath D) := by
  rw [State.dataPath_eq]
  exact State.SparesSink.trans_closesSinkOnce (.of_outbox_eq rfl) (State.handleResult_closesSinkOnce _ _)

theorem State.clearResends_errorPacket_closesSinkOnce (D : Bytes) : s.ClosesSinkOnce (s.clearResends.errorPacket D) :=
  s.clearResends_sparesSink.trans_closesSinkOnce (s.clearResends.enterError_closesSinkOnce _ _)

theorem State.clearResends_dataPath_closesSinkOnce (D : Bytes) : s.ClosesSinkOnce (s.clearResends.dataPath D) :=
  s.clearResends_sparesSink.trans_closesSinkOnce (s.clearResends.dataPath_closesSinkOnce D)

theorem State.rxStep_closesSinkOnce (D : Bytes) : s.ClosesSinkOnce (s.rxStep D) := by
  unfold State.rxStep
  dsimp only
  split
  · exact State.SparesSink.closesSinkOnce (.of_outbox_eq rfl)
  · split
    · exact s.clearResends_errorPacket_closesSinkOnce _
    · exact s.clearResends_dataPath_closesSinkOnce _

end

/-! ## Every instruction, and the step -/

section
variable {s t : State}

/-- An output reaches the sink from `AwaitingBlock` only, where it is closed at most once. -/
def State.UsesSinkWhileAwaiting (s t : State) : Prop :=
  s.SparesSink t ∨ (s.state = .awaitingBlock ∧ s.ClosesSinkOnce t)

theorem usesSinkWhileAwaiting_of_whenAwaiting {f : State → State} (hf : ∀ s : State, s.ClosesSinkOnce (f s))
    (h : s.whenAwaiting f = .next t) : s.UsesSinkWhileAwaiting t := by
  obtain ⟨hs, rfl⟩ | ⟨-, -, rfl⟩ := s.whenAwaiting_eq_next h
  · exact .inr ⟨hs, hf s⟩
  · exact .inl (.of_outbox_eq rfl)

theorem usesSinkWhileAwaiting_of_emit {o : Output} (ho : o.isSink = false)
    (h : (.next (s.emit o) : Host.Outcome State Fault Refusal) = .next t) : s.UsesSinkWhileAwaiting t := by
  obtain rfl := Host.Outcome.next.inj h
  exact .inl (.emit ho)

/-- START opens the sink and emits nothing for it (43_session.md R175). -/
theorem execStart_sparesSink {op : Byte} {name : Bytes} {addr : PeerAddr} (h : execStart op name addr s = .next t) :
    s.SparesSink t := by
  unfold execStart at h
  split at h
  · obtain ⟨-, rfl⟩ | ⟨-, -, rfl⟩ := s.whenIdle_eq_next h
    · cases addr with
      | none => exact ⟨[.report (.error .noHost none)], by simp [State.noHost_eq], rfl⟩
      | bound => exact ⟨[.tx (requestBytes op name s.cfg.mode)], by simp [State.sendRequest_eq], rfl⟩
    · exact .of_outbox_eq rfl
  · cases h

theorem exec_usesSinkWhileAwaiting {i : Instr} (h : exec i s = .next t) : s.UsesSinkWhileAwaiting t := by
  cases i with
  | rrq name mode => exact usesSinkWhileAwaiting_of_emit rfl h
  | rrqErr name mode => exact usesSinkWhileAwaiting_of_emit rfl h
  | ack block => exact usesSinkWhileAwaiting_of_emit rfl h
  | nack block => exact usesSinkWhileAwaiting_of_emit rfl h
  | hamCodeword cw => exact usesSinkWhileAwaiting_of_emit rfl h
  | error b0 x y rest =>
    simp only [exec, execError] at h
    exact usesSinkWhileAwaiting_of_whenAwaiting (fun s => s.clearResends_errorPacket_closesSinkOnce _) h
  | data b0 block rest =>
    simp only [exec, execData] at h
    exact usesSinkWhileAwaiting_of_whenAwaiting (fun s => s.clearResends_dataPath_closesSinkOnce _) h
  | rxOther b0 op block rest =>
    simp only [exec, execRxOther] at h
    exact usesSinkWhileAwaiting_of_whenAwaiting (fun s => s.clearResends_dataPath_closesSinkOnce _) h
  | runt D =>
    exact usesSinkWhileAwaiting_of_whenAwaiting (fun _ => State.SparesSink.closesSinkOnce (.of_outbox_eq rfl)) h
  | rx D => exact usesSinkWhileAwaiting_of_whenAwaiting (fun s => s.rxStep_closesSinkOnce D) h
  | timeout => exact usesSinkWhileAwaiting_of_whenAwaiting (fun s => s.timeoutStep_closesSinkOnce) h
  | fault =>
    exact usesSinkWhileAwaiting_of_whenAwaiting
      (fun s => (State.SparesSink.emit rfl).trans_closesSinkOnce (s.report (.log .transportFault)).timeoutStep_closesSinkOnce) h
  | reset =>
    obtain rfl := Host.Outcome.next.inj h
    exact .inl (.of_outbox_eq rfl)
  | start op name addr => exact .inl (execStart_sparesSink h)

/-- A step that answers waits, or runs the instruction its oldest input decodes to. -/
theorem step_eq_next (h : step s = .next t) : t = s ∨ ∃ i, exec i s.taken = .next t := by
  unfold step at h
  split at h
  · exact .inl (Host.Outcome.next.inj h).symm
  · split at h
    · exact .inr ⟨_, h⟩
    · cases h

theorem State.taken_usesSinkWhileAwaiting : s.taken.UsesSinkWhileAwaiting t ↔ s.UsesSinkWhileAwaiting t :=
  Iff.rfl

theorem step_usesSinkWhileAwaiting (h : step s = .next t) : s.UsesSinkWhileAwaiting t := by
  obtain rfl | ⟨i, hexec⟩ := step_eq_next h
  · exact .inl (.of_outbox_eq rfl)
  · exact State.taken_usesSinkWhileAwaiting.1 (exec_usesSinkWhileAwaiting hexec)

theorem State.Inv.sinkOpen_of_awaiting (h : s.Inv) (hs : s.state = .awaitingBlock) : s.sinkOpen = true := by
  obtain ⟨-, ⟨-, hsink, -⟩, -⟩ := h
  exact hsink.2 hs

end

/-- Settles O29: outputs for the sink come from `AwaitingBlock` only, where the invariant has the sink open. -/
theorem sinkOutputsNeedAnOpenSink : Obligations.SinkOutputsNeedAnOpenSink := by
  intro s t os hinv hstep hos
  obtain ⟨os', hos', hquiet⟩ | ⟨hawait, os', hos', hcount, hclosed⟩ := step_usesSinkWhileAwaiting hstep
  · obtain rfl : os = os' := List.append_cancel_left (hos.symm.trans hos')
    have hnot : Output.sinkClose ∉ os := not_sinkClose_mem_of_any_isSink hquiet
    exact ⟨by simp [hquiet], by simp [countP_sinkClose_eq_zero hnot], fun hmem => absurd hmem hnot⟩
  · obtain rfl : os = os' := List.append_cancel_left (hos.symm.trans hos')
    exact ⟨fun _ => hinv.sinkOpen_of_awaiting hawait, hcount, hclosed⟩

end Sys2Proof.Machine
end

section
/-! Byte order and the datagram buffer (20_memory.md R53, R56): which wire byte each position of a codeword comes from, and
which bytes of a datagram each codeword. -/

namespace Sys2Proof.Machine

/-! ## The positions of an assembled codeword -/

/-- A byte shifted up by `k` bytes fills the positions of byte `k` and no others. -/
theorem getLsbD_shiftLeft_byte (b : Byte) (k q : Nat) (hq : q < 32) :
    (b.setWidth 32 <<< (8 * k)).getLsbD q = (decide (q / 8 = k) && b.getLsbD (q % 8)) := by
  rw [BitVec.getLsbD_shiftLeft, BitVec.getLsbD_setWidth]
  obtain hlt | rfl | hgt := lt_trichotomy (q / 8) k
  · have below : q < 8 * k := by omega
    simp [below, hlt.ne]
  · have hoffset : q - 8 * (q / 8) = q % 8 := by omega
    have hwidth : q % 8 < 32 := by omega
    simp [hoffset, hwidth, hq, Nat.mul_div_le]
  · have above : b.getLsbD (q - 8 * k) = false := BitVec.getLsbD_of_ge _ _ (by omega)
    simp [above, hgt.ne']

/-- The first wire byte holds the lowest positions (20_memory.md R53, `LE`). -/
theorem getLsbD_assemble_le (b0 b1 b2 b3 : Byte) (q : Nat) (hq : q < 32) :
    (assemble .le b0 b1 b2 b3).getLsbD q = ([b0, b1, b2, b3].getD (q / 8) 0).getLsbD (q % 8) := by
  have hfirst := getLsbD_shiftLeft_byte b0 0 q hq
  rw [Nat.mul_zero, BitVec.shiftLeft_zero] at hfirst
  simp only [assemble, BitVec.getLsbD_or, hfirst, getLsbD_shiftLeft_byte b1 1 q hq, getLsbD_shiftLeft_byte b2 2 q hq,
    getLsbD_shiftLeft_byte b3 3 q hq]
  have hbyte : q / 8 < 4 := by omega
  generalize q / 8 = k at hbyte
  match k, hbyte with
  | 0, _ | 1, _ | 2, _ | 3, _ => simp

/-- The two wire orders differ in the order of the bytes alone. -/
theorem assemble_be_eq_le_reversed (b0 b1 b2 b3 : Byte) : assemble .be b0 b1 b2 b3 = assemble .le b3 b2 b1 b0 := by
  simp only [assemble]
  generalize b0.setWidth 32 <<< 24 = w0, b1.setWidth 32 <<< 16 = w1, b2.setWidth 32 <<< 8 = w2, b3.setWidth 32 = w3
  ac_rfl

/-- Settles O41: BE is LE of the reversed bytes, and under LE each byte fills its own eight positions. -/
theorem codewordsAreAssembledFromWireBytes : Obligations.CodewordsAreAssembledFromWireBytes := by
  intro b0 b1 b2 b3 q hq
  refine ⟨getLsbD_assemble_le b0 b1 b2 b3 q hq, ?_⟩
  rw [assemble_be_eq_le_reversed]
  exact getLsbD_assemble_le b3 b2 b1 b0 q hq

/-! ## The codewords of a byte string -/

section
variable (m : WireBitMap)

theorem codewordsOf_cons (b0 b1 b2 b3 : Byte) (l : Bytes) :
    codewordsOf m (b0 :: b1 :: b2 :: b3 :: l) = assemble m b0 b1 b2 b3 :: codewordsOf m l := rfl

/-- Fewer than four bytes hold no codeword. -/
theorem codewordsOf_of_length_lt_four : ∀ {l : Bytes}, l.length < 4 → codewordsOf m l = []
  | [], _ | [_], _ | [_, _], _ | [_, _, _], _ => rfl
  | _ :: _ :: _ :: _ :: _, h => by simp at h; omega

/-- The induction on a byte string that goes by whole codewords. -/
theorem codewordwise_induction {P : Bytes → Prop} (short : ∀ l : Bytes, l.length < 4 → P l)
    (word : ∀ b0 b1 b2 b3 l, P l → P (b0 :: b1 :: b2 :: b3 :: l)) : ∀ l, P l
  | b0 :: b1 :: b2 :: b3 :: l => word b0 b1 b2 b3 l (codewordwise_induction short word l)
  | [] | [_] | [_, _] | [_, _, _] => short _ (by simp)

theorem length_codewordsOf (l : Bytes) : (codewordsOf m l).length = l.length / 4 := by
  induction l using codewordwise_induction with
  | short l hl => rw [codewordsOf_of_length_lt_four m hl, List.length_nil, Nat.div_eq_of_lt hl]
  | word b0 b1 b2 b3 l ih =>
    simp only [codewordsOf_cons, List.length_cons, ih]
    omega

/-- Codeword `k` is assembled from the four bytes from offset `4k` on. -/
theorem getElem?_codewordsOf (l : Bytes) (k : Nat) (hk : k < l.length / 4) :
    (codewordsOf m l)[k]? =
      some (assemble m (l.getD (4 * k) 0) (l.getD (4 * k + 1) 0) (l.getD (4 * k + 2) 0) (l.getD (4 * k + 3) 0)) := by
  induction l using codewordwise_induction generalizing k with
  | short l hl => omega
  | word b0 b1 b2 b3 l ih =>
    rw [codewordsOf_cons]
    cases k with
    | zero => rfl
    | succ k =>
      have hk' : k < l.length / 4 := by simp only [List.length_cons] at hk; omega
      have hfour : 4 * (k + 1) = 4 * k + 4 := by omega
      rw [List.getElem?_cons_succ, ih k hk', hfour]
      simp [Nat.add_right_comm]

/-- Behind whole codewords the next ones begin afresh. -/
theorem codewordsOf_append (l tail : Bytes) (hl : l.length % 4 = 0) :
    codewordsOf m (l ++ tail) = codewordsOf m l ++ codewordsOf m tail := by
  induction l using codewordwise_induction with
  | short l hshort =>
    obtain rfl : l = [] := List.eq_nil_of_length_eq_zero (by omega)
    rfl
  | word b0 b1 b2 b3 l ih =>
    have hl' : l.length % 4 = 0 := by simp only [List.length_cons] at hl; omega
    simp only [List.cons_append, codewordsOf_cons, ih hl']

/-- Whole codewords followed by up to 3 bytes, cut after `n` codewords: the bytes left over stay without effect
(20_memory.md R51, R56). -/
theorem codewordsOf_take_append_short (l tail : Bytes) (n : Nat) (hl : l.length % 4 = 0) (htail : tail.length < 4) :
    codewordsOf m ((l ++ tail).take (4 * n)) = codewordsOf m (l.take (4 * n)) := by
  have hwhole : (l.take (4 * n)).length % 4 = 0 := by rw [List.length_take]; omega
  have hshort : (tail.take (4 * n - l.length)).length < 4 := by rw [List.length_take]; omega
  rw [List.take_append, codewordsOf_append m _ _ hwhole, codewordsOf_of_length_lt_four m hshort, List.append_nil]

end

/-- Settles O56: the codewords of the bytes behind the four header bytes. -/
theorem codewordsSitAtOffsetsOfFour : Obligations.CodewordsSitAtOffsetsOfFour := by
  intro m D _
  have hlen : (D.drop 4).length = D.length - 4 := List.length_drop
  have hoffset : ∀ i, (D.drop 4).getD i 0 = D.getD (4 + i) 0 := fun i => by
    rw [List.getD_eq_getElem?_getD, List.getElem?_drop, List.getD_eq_getElem?_getD]
  refine ⟨by rw [length_codewordsOf, hlen], fun k hk => ?_⟩
  have hfive : 5 + 4 * k = 4 + (4 * k + 1) := by omega
  have hsix : 6 + 4 * k = 4 + (4 * k + 2) := by omega
  have hseven : 7 + 4 * k = 4 + (4 * k + 3) := by omega
  rw [getElem?_codewordsOf m _ k (by rwa [hlen]), hfive, hsix, hseven]
  simp only [hoffset]

/-! ## What the data path reads of a datagram -/

/-- PACKET_DECODE reads the header and the codewords of a datagram, and nothing else (42_packet_decode.md R151). -/
theorem packetDecode_congr (p : Params) (d : Deint) {D E : Bytes} (hheader : D.take 4 = E.take 4)
    (hwords : codewordsOf p.wireBitMap (D.drop 4) = codewordsOf p.wireBitMap (E.drop 4)) :
    packetDecode p d D = packetDecode p d E := by
  simp only [packetDecode, hheader, hwords]

/-- The capture reads the header alone (43_session.md R184). -/
theorem captured_take_four (s : State) (D : Bytes) : captured s (D.take 4) = captured s D := by
  simp [captured]

theorem State.dataPath_congr (s : State) {D E : Bytes} (hheader : D.take 4 = E.take 4)
    (hwords : codewordsOf s.cfg.wireBitMap (D.drop 4) = codewordsOf s.cfg.wireBitMap (E.drop 4)) :
    s.dataPath D = s.dataPath E := by
  have hcaptured : captured s D = captured s E := by rw [← captured_take_four, hheader, captured_take_four]
  rw [State.dataPath_eq, State.dataPath_eq, packetDecode_congr s.cfg s.deint hheader hwords, hcaptured]

/-- The transport leaves the header and the bytes of `N_CW` codewords (20_memory.md R51). -/
theorem State.received_header_append (s : State) (x0 x1 x2 x3 : Byte) (rest : Bytes) :
    s.received ([x0, x1, x2, x3] ++ rest) = [x0, x1, x2, x3] ++ rest.take (4 * s.cfg.nCw) := by
  rw [State.received, Params.maxDgram]
  exact List.take_length_add_append (l₁ := [x0, x1, x2, x3]) _

theorem exec_data (b0 : Byte) (v : BlockNo) (rest : Bytes) (s : State) :
    exec (.data b0 v rest) s =
      s.whenAwaiting fun s => s.clearResends.dataPath (s.received ([b0, 0x03, blockHi v, blockLo v] ++ rest)) := rfl

/-- Settles O27: the datagrams with and without the last bytes have the same header and the same codewords, and the data path
reads nothing else. -/
theorem trailingBytesAreIgnored : Obligations.TrailingBytesAreIgnored := by
  intro b0 v rest tail s hrest htail
  rw [exec_data, exec_data]
  refine congrArg s.whenAwaiting (funext fun t => ?_)
  rw [State.received_header_append, State.received_header_append]
  exact State.dataPath_congr _ rfl (codewordsOf_take_append_short _ rest tail t.cfg.nCw hrest htail)

end Sys2Proof.Machine
end

section
/-! The classification of a received datagram (30_encoding.md R80, 43_session.md R178): the decoder's cases by length and by
byte 1, and RX, which takes the same cases. -/

namespace Sys2Proof.Machine

/-! ## The decoder's cases -/

/-- The field of R52 as a number. -/
theorem blockOf_eq_ofNat (hi lo : Byte) : blockOf hi lo = BitVec.ofNat 16 (hi.toNat * 256 + lo.toNat) := by
  apply BitVec.eq_of_toNat_eq
  simp [blockOf]

theorem exists_header_append {D : Bytes} (h : 4 ≤ D.length) :
    ∃ b0 b1 b2 b3 rest, D = [b0, b1, b2, b3] ++ rest := by
  match D, h with
  | b0 :: b1 :: b2 :: b3 :: rest, _ => exact ⟨b0, b1, b2, b3, rest, rfl⟩

theorem decodeDatagram_of_length_lt_four : ∀ {D : Bytes}, D.length < 4 → decodeDatagram D = .runt D
  | [], _ | [_], _ | [_, _], _ | [_, _, _], _ => rfl
  | _ :: _ :: _ :: _ :: _, h => by simp at h; omega

section
variable (b0 b1 b2 b3 : Byte) (rest : Bytes)

theorem decodeDatagram_header_append :
    decodeDatagram ([b0, b1, b2, b3] ++ rest) =
      if b1 = 0x05 then .error b0 b2 b3 rest
      else if b1 = 0x03 then .data b0 (blockOf b2 b3) rest
      else .rxOther b0 b1 (blockOf b2 b3) rest := rfl

theorem decodeDatagram_error : decodeDatagram ([b0, 0x05, b2, b3] ++ rest) = .error b0 b2 b3 rest := rfl

theorem decodeDatagram_data : decodeDatagram ([b0, 0x03, b2, b3] ++ rest) = .data b0 (blockOf b2 b3) rest := rfl

theorem decodeDatagram_rxOther (herror : b1 ≠ 0x05) (hdata : b1 ≠ 0x03) :
    decodeDatagram ([b0, b1, b2, b3] ++ rest) = .rxOther b0 b1 (blockOf b2 b3) rest := by
  rw [decodeDatagram_header_append, if_neg herror, if_neg hdata]

end

/-! ## The instructions that receive -/

section
variable (s : State)

theorem exec_rx (D : Bytes) : exec (.rx D) s = s.whenAwaiting fun s => s.rxStep D := rfl

theorem exec_runt (D : Bytes) : exec (.runt D) s = s.whenAwaiting fun s => s := rfl

theorem exec_error (b0 x y : Byte) (rest : Bytes) :
    exec (.error b0 x y rest) s =
      s.whenAwaiting fun s => s.clearResends.errorPacket (s.received ([b0, 0x05, x, y] ++ rest)) := rfl

theorem exec_rxOther (b0 op : Byte) (v : BlockNo) (rest : Bytes) :
    exec (.rxOther b0 op v rest) s =
      s.whenAwaiting fun s => s.clearResends.dataPath (s.received ([b0, op, blockHi v, blockLo v] ++ rest)) := rfl

/-- The data path reads of the header the block number alone: bytes 0 and 1 select nothing in it. -/
theorem State.dataPath_header_append (b0 b1 c0 c1 b2 b3 : Byte) (rest : Bytes) :
    s.dataPath ([b0, b1, b2, b3] ++ rest) = s.dataPath ([c0, c1, b2, b3] ++ rest) := by
  have hcaptured : captured s ([b0, b1, b2, b3] ++ rest) = captured s ([c0, c1, b2, b3] ++ rest) := rfl
  have hdrop : ∀ x0 x1 : Byte, ([x0, x1, b2, b3] ++ rest).drop 4 = rest := fun _ _ => rfl
  rw [State.dataPath_eq, State.dataPath_eq, hcaptured, packetDecode_deint, packetDecode_deint]
  simp only [packetDecode, hdrop]
  cases decodeCodewords s.cfg 0 Deint.clear (codewordsOf s.cfg.wireBitMap rest) with
  | error k => rfl
  | ok d => rfl

/-- What is too short for a header stays so in the receive buffer, and changes nothing (43_session.md R179). -/
theorem State.rxStep_of_length_lt_four {D : Bytes} (h : D.length < 4) : s.rxStep D = s := by
  have hreceived : (s.received D).length < 4 := (List.length_take_le' _ _).trans_lt h
  simp only [State.rxStep, if_pos hreceived]

/-- With a whole header, byte 1 alone tells an error packet from what goes to the data path (43_session.md R178). -/
theorem State.rxStep_header_append (b0 b1 b2 b3 : Byte) (rest : Bytes) :
    s.rxStep ([b0, b1, b2, b3] ++ rest) =
      if b1 = 0x05 then s.clearResends.errorPacket (s.received ([b0, b1, b2, b3] ++ rest))
      else s.clearResends.dataPath (s.received ([b0, b1, b2, b3] ++ rest)) := by
  have hlong : ¬ (s.received ([b0, b1, b2, b3] ++ rest)).length < 4 := by
    rw [State.received_header_append]; simp
  have hopcode : (s.received ([b0, b1, b2, b3] ++ rest)).getD 1 0 = b1 := by
    rw [State.received_header_append]; rfl
  simp only [State.rxStep, if_neg hlong, hopcode]

theorem exec_rx_of_length_lt_four {D : Bytes} (h : D.length < 4) : exec (.rx D) s = exec (.runt D) s := by
  simp only [exec_rx, exec_runt, State.rxStep_of_length_lt_four _ h]

theorem exec_rx_error (b0 b2 b3 : Byte) (rest : Bytes) :
    exec (.rx ([b0, 0x05, b2, b3] ++ rest)) s = exec (.error b0 b2 b3 rest) s := by
  simp only [exec_rx, exec_error, State.rxStep_header_append, if_true]

theorem exec_rx_rxOther (b0 b1 b2 b3 : Byte) (rest : Bytes) (h : b1 ≠ 0x05) :
    exec (.rx ([b0, b1, b2, b3] ++ rest)) s = exec (.rxOther b0 b1 (blockOf b2 b3) rest) s := by
  simp only [exec_rx, exec_rxOther, State.rxStep_header_append, if_neg h, blockHi_blockOf, blockLo_blockOf]

/-- Any opcode the data path is reached with is decoded as `03` is (30_encoding.md R80). -/
theorem exec_rxOther_eq_exec_data (b0 op : Byte) (v : BlockNo) (rest : Bytes) :
    exec (.rxOther b0 op v rest) s = exec (.data b0 v rest) s := by
  rw [exec_rxOther, exec_data]
  refine congrArg s.whenAwaiting (funext fun t => ?_)
  rw [State.received_header_append, State.received_header_append]
  exact State.dataPath_header_append _ _ _ _ _ _ _ _

end

/-- Settles O23, by the cases of R80: too short for a header, `05`, `03`, any other opcode. -/
theorem rxRunsTheInstructionOfItsDatagram : Obligations.RxRunsTheInstructionOfItsDatagram := by
  intro D s
  obtain hshort | hlong := Nat.lt_or_ge D.length 4
  · rw [decodeDatagram_of_length_lt_four hshort, exec_rx_of_length_lt_four s hshort]
  · obtain ⟨b0, b1, b2, b3, rest, rfl⟩ := exists_header_append hlong
    by_cases herror : b1 = 0x05
    · rw [herror, decodeDatagram_error, exec_rx_error]
    · rw [exec_rx_rxOther s b0 b1 b2 b3 rest herror]
      by_cases hdata : b1 = 0x03
      · rw [hdata, decodeDatagram_data, exec_rxOther_eq_exec_data]
      · rw [decodeDatagram_rxOther b0 b1 b2 b3 rest herror hdata]

/-- Settles O40: the decoder's cases, the block number as a number, and that the data path does not look at the opcode. -/
theorem datagramsAreClassifiedByLengthAndByteOne : Obligations.DatagramsAreClassifiedByLengthAndByteOne := by
  refine ⟨fun D => decodeDatagram_of_length_lt_four, fun b0 b1 b2 b3 rest => ?_, fun b0 op v rest s _ => ?_⟩
  · rw [← blockOf_eq_ofNat]
    exact decodeDatagram_header_append b0 b1 b2 b3 rest
  · exact exec_rxOther_eq_exec_data s b0 op v rest

end Sys2Proof.Machine
end

section
/-! The checks as parities and the syndrome as the name of an error (40_codec.md section 1, R100-R104): everything here goes by
the linearity of the checks over xor and by what the word with one bit set makes fail. -/

namespace Sys2Proof.Machine

/-! ## A word with one bit set, and the words it makes up -/

theorem getLsbD_single (q j : Nat) : (1#32 <<< q).getLsbD j = (decide (q < 32) && decide (q = j)) :=
  BitVec.getLsbD_twoPow q j

/-- A word of popcount 2 has two bits set, at two different positions. -/
theorem exists_eq_single_xor_single {e : Codeword} (h : popcount e = 2) :
    ∃ q r, q < 32 ∧ r < 32 ∧ q ≠ r ∧ e = 1#32 <<< q ^^^ 1#32 <<< r := by
  obtain ⟨q, r, hqr⟩ := List.length_eq_two.1 h
  have hnodup : [q, r].Nodup := hqr ▸ List.nodup_range.filter _
  have hne : q ≠ r := by simpa using hnodup
  have hset : ∀ k, k < 32 ∧ e.getLsbD k = true ↔ k = q ∨ k = r := fun k => by
    rw [← List.mem_range, ← List.mem_filter, hqr, List.mem_pair]
  have hq := (hset q).2 (.inl rfl)
  have hr := (hset r).2 (.inr rfl)
  refine ⟨q, r, hq.1, hr.1, hne, BitVec.eq_of_getLsbD_eq fun k hk => ?_⟩
  have hbit : e.getLsbD k = decide (k = q ∨ k = r) := by
    rw [Bool.eq_iff_iff, decide_eq_true_iff, ← hset k, and_iff_right hk]
  rw [hbit, BitVec.getLsbD_xor, getLsbD_single, getLsbD_single]
  obtain rfl | hkq := eq_or_ne k q
  · simp [hk, hne.symm]
  · simp [hkq, hkq.symm, hr.1, eq_comm]

/-! ## Parities -/

theorem parityOver_append (w : Codeword) (qs rs : List Nat) :
    parityOver w (qs ++ rs) = (parityOver w qs ^^ parityOver w rs) := by
  induction qs with
  | nil => simp [parityOver]
  | cons q qs ih => rw [List.cons_append, parityOver_cons, parityOver_cons, ih, Bool.xor_assoc]

theorem parityOver_congr {v w : Codeword} {qs : List Nat} (h : ∀ q ∈ qs, v.getLsbD q = w.getLsbD q) :
    parityOver v qs = parityOver w qs := by
  induction qs with
  | nil => rfl
  | cons q qs ih =>
    rw [parityOver_cons, parityOver_cons, h q List.mem_cons_self, ih fun r hr => h r (List.mem_cons_of_mem q hr)]

/-- The xor of bits is 1 exactly when an odd number of them is. -/
theorem parityOver_eq_true_iff (w : Codeword) (qs : List Nat) :
    parityOver w qs = true ↔ (qs.filter w.getLsbD).length % 2 = 1 := by
  induction qs with
  | nil => simp [parityOver]
  | cons q qs ih =>
    rw [parityOver_cons, List.filter_cons]
    cases w.getLsbD q
    · simpa using ih
    · rw [Bool.true_xor, Bool.not_eq_true', ← Bool.not_eq_true, ih, if_pos rfl, List.length_cons]
      omega

/-- Among different positions, one set bit fails the parity exactly where it is covered. -/
theorem parityOver_single {q : Nat} (hq : q < 32) {qs : List Nat} (h : qs.Nodup) :
    parityOver (1#32 <<< q) qs = decide (q ∈ qs) := by
  induction qs with
  | nil => rfl
  | cons r qs ih =>
    obtain ⟨hr, hqs⟩ := List.nodup_cons.1 h
    rw [parityOver_cons, ih hqs, getLsbD_single]
    obtain rfl | hne := eq_or_ne q r
    · simp [hq, hr]
    · simp [hne]

/-! ## The checks -/

theorem covers_eq_testBit (i q : Nat) : covers i q = (q + 1).testBit i := by
  rw [Nat.testBit_eq_decide_div_mod_eq, covers, Nat.shiftRight_eq_div_pow, beq_eq_decide]

theorem mem_cov {i q : Nat} : q ∈ cov i ↔ q < 31 ∧ (q + 1).testBit i = true := by
  rw [cov, List.mem_filter, List.mem_range, covers_eq_testBit]

theorem nodup_cov (i : Nat) : (cov i).Nodup := List.nodup_range.filter _

theorem check_overall (w : Codeword) : check w 5 = parityOver w (List.range 32) := rfl

theorem check_local (w : Codeword) {i : Nat} (hi : i < 5) : check w i = parityOver w (cov i) := if_neg hi.ne

theorem check_overall_eq_true_iff (w : Codeword) : check w 5 = true ↔ popcount w % 2 = 1 :=
  parityOver_eq_true_iff w _

theorem check_overall_eq_false_iff (w : Codeword) : check w 5 = false ↔ popcount w % 2 = 0 := by
  rw [← Bool.not_eq_true, check_overall_eq_true_iff]
  omega

theorem check_overall_single {q : Nat} (hq : q < 32) : check (1#32 <<< q) 5 = true := by
  rw [check_overall, parityOver_single hq List.nodup_range, decide_eq_true (List.mem_range.2 hq)]

/-- The localizing checks a single error fails spell its 1-based position; position 31 fails none, as 32 has no bit below 5. -/
theorem check_local_single {q i : Nat} (hq : q < 32) (hi : i < 5) : check (1#32 <<< q) i = (q + 1).testBit i := by
  rw [check_local _ hi, parityOver_single hq (nodup_cov i)]
  obtain rfl | hne := eq_or_ne q 31
  · have h32 : (31 + 1).testBit i = false := Nat.testBit_two_pow_of_ne (n := 5) hi.ne'
    simp [mem_cov, h32]
  · have h31 : q < 31 := by omega
    simp [mem_cov, h31]

/-! ## The syndrome -/

theorem syndrome_eq_zero_iff (w : Codeword) : syndrome w = 0 ↔ ∀ i, i < 5 → check w i = false := by
  simp [BitVec.eq_of_getLsbD_eq_iff, getLsbD_syndrome]

theorem toNat_syndrome (w : Codeword) :
    (syndrome w).toNat = (check w 0).toNat * 1 + (check w 1).toNat * 2 + (check w 2).toNat * 4 + (check w 3).toNat * 8 +
      (check w 4).toNat * 16 := by
  have hbits : bitsToNat ((List.range 5).map (check w)) = (check w 0).toNat + 2 * ((check w 1).toNat +
      2 * ((check w 2).toNat + 2 * ((check w 3).toNat + 2 * ((check w 4).toNat + 2 * 0)))) := rfl
  have hlt : ∀ i, (check w i).toNat < 2 := fun i => Bool.toNat_lt _
  have h0 := hlt 0; have h1 := hlt 1; have h2 := hlt 2; have h3 := hlt 3; have h4 := hlt 4
  rw [syndrome, BitVec.toNat_ofNat, hbits]
  omega

/-- A single error is named by its 1-based position, and one at position 31 by 0 (40_codec.md R104). -/
theorem syndrome_single {q : Nat} (hq : q < 32) : syndrome (1#32 <<< q) = BitVec.ofNat 5 (q + 1) := by
  apply BitVec.eq_of_getLsbD_eq
  intro i hi
  rw [getLsbD_syndrome, BitVec.getLsbD_ofNat, check_local_single hq hi]

theorem toNat_syndrome_single {q : Nat} (hq : q < 31) : (syndrome (1#32 <<< q)).toNat = q + 1 := by
  rw [syndrome_single (by omega), BitVec.toNat_ofNat]
  exact Nat.mod_eq_of_lt (by omega)

theorem syndrome_single_ne_zero {q : Nat} (hq : q < 31) : syndrome (1#32 <<< q) ≠ 0 := fun h =>
  Nat.succ_ne_zero q ((toNat_syndrome_single hq).symm.trans (congrArg BitVec.toNat h))

/-- Two errors at different positions have different names, so that they do not cancel. -/
theorem syndrome_single_xor_single_ne_zero {q r : Nat} (hq : q < 32) (hr : r < 32) (hne : q ≠ r) :
    syndrome (1#32 <<< q ^^^ 1#32 <<< r) ≠ 0 := by
  rw [syndrome_xor, syndrome_single hq, syndrome_single hr]
  intro h
  have hname := congrArg BitVec.toNat (BitVec.xor_eq_zero_iff.1 h)
  rw [BitVec.toNat_ofNat, BitVec.toNat_ofNat] at hname
  omega

/-! ## Valid codewords -/

/-- All six checks pass: the five of the syndrome, and the overall one. -/
theorem validCodeword_iff (w : Codeword) : ValidCodeword w ↔ syndrome w = 0 ∧ check w 5 = false := by
  have hchecks : ValidCodeword w ↔ ∀ i, i < 6 → check w i = false := by
    simp [ValidCodeword, BitVec.eq_of_getLsbD_eq_iff, getLsbD_checks]
  rw [hchecks, syndrome_eq_zero_iff]
  refine ⟨fun h => ⟨fun i hi => h i (by omega), h 5 (by omega)⟩, fun ⟨hlocal, hoverall⟩ i hi => ?_⟩
  obtain hi | rfl := Nat.lt_succ_iff_lt_or_eq.1 hi
  · exact hlocal i hi
  · exact hoverall

section
variable {v : Codeword} (hv : ValidCodeword v) (e : Codeword)
include hv

theorem ValidCodeword.syndrome_xor : syndrome (v ^^^ e) = syndrome e := by
  rw [Machine.syndrome_xor, ((validCodeword_iff v).1 hv).1]
  exact BitVec.zero_xor

theorem ValidCodeword.check_overall_xor : check (v ^^^ e) 5 = check e 5 := by
  rw [check_xor, ((validCodeword_iff v).1 hv).2, Bool.false_xor]

end

/-- Settles O42: each check is the parity of the bits it covers, and the syndrome their number in binary. -/
theorem checksAreParitiesAndTheSyndromeTheirSum : Obligations.ChecksAreParitiesAndTheSyndromeTheirSum := by
  intro w
  refine ⟨fun i hi => ?_, fun i hi => ?_, check_overall_eq_true_iff w, toNat_syndrome w⟩
  · rw [getLsbD_checks, decide_eq_true hi, Bool.true_and]
  · rw [check_local w hi, parityOver_eq_true_iff, cov, List.filter_filter]
    simp only [covers, Bool.and_comm]

/-- Settles O43: over a valid codeword only the error counts; a single one is named by its position, and of two the names differ. -/
theorem theSyndromeNamesTheError : Obligations.TheSyndromeNamesTheError := by
  refine ⟨fun v e hv => ⟨hv.syndrome_xor e, hv.check_overall_xor e⟩, fun v hv q hq => ?_, fun v hv => ?_,
    fun v e hv heven => ?_, fun v e hv htwo => ?_⟩
  · rw [hv.syndrome_xor, hv.check_overall_xor]
    exact ⟨toNat_syndrome_single (by omega), check_overall_single (by omega)⟩
  · rw [hv.syndrome_xor, hv.check_overall_xor]
    exact ⟨syndrome_single (q := 31) (by omega), check_overall_single (by omega)⟩
  · rw [hv.syndrome_xor, hv.check_overall_xor]
    exact ⟨(check_overall_eq_false_iff e).2 heven, syndrome_eq_zero_iff e⟩
  · obtain ⟨q, r, hq, hr, hne, rfl⟩ := exists_eq_single_xor_single htwo
    rw [hv.syndrome_xor]
    exact syndrome_single_xor_single_ne_zero hq hr hne

end Sys2Proof.Machine
end

section
/-! EXTRACT and HAM_DECODE (40_codec.md section 2, R105-R115): the bits of a fragment, the four cases of the decoder in terms of
syndrome and overall check, and what they make of a valid codeword with errors. -/

namespace Sys2Proof.Machine

/-! ## EXTRACT -/

theorem getLsbD_extract (w : Codeword) {u : Nat} (hu : u < 26) :
    (extract w).getLsbD u = w.getLsbD (dataPositions.getD u 0) := by
  have hlen : u < dataPositions.length := hu
  rw [extract, BitVec.getLsbD_ofNat, testBit_bitsToNat, decide_eq_true hu, Bool.true_and]
  simp [List.getD_eq_getElem?_getD, hlen]

/-- A fragment holds exactly the data positions of its word. -/
theorem extract_eq_extract_iff (v w : Codeword) :
    extract v = extract w ↔ ∀ q ∈ dataPositions, v.getLsbD q = w.getLsbD q := by
  refine ⟨fun h q hq => ?_, fun h => congrArg (fun l => BitVec.ofNat 26 (bitsToNat l)) (List.map_congr_left h)⟩
  obtain ⟨u, hu, rfl⟩ := List.getElem_of_mem hq
  have hbit := congrArg (fun f => f.getLsbD u) h
  simp only [getLsbD_extract _ (show u < 26 from hu), List.getD_eq_getElem _ _ hu] at hbit
  exact hbit

theorem extract_xor_eq_iff (v x : Codeword) : extract (v ^^^ x) = extract v ↔ ∀ q ∈ dataPositions, x.getLsbD q = false := by
  rw [extract_eq_extract_iff]
  refine forall₂_congr fun q _ => ?_
  rw [BitVec.getLsbD_xor]
  cases v.getLsbD q <;> simp

theorem dataPositions_eq_filter : dataPositions = (List.range 32).filter (fun q => q ∉ [0, 1, 3, 7, 15, 31]) := by decide

/-- Position 31 is no data position, so that the decoder need not flip it back. -/
theorem extract_xor_single_31 (v : Codeword) : extract (v ^^^ 1#32 <<< 31) = extract v := by
  rw [extract_xor_eq_iff]
  decide

/-- Settles O47: bit `u` of the fragment is the word's bit at the `u`-th data position. -/
theorem extractReadsTheDataPositions : Obligations.ExtractReadsTheDataPositions := by
  refine ⟨fun w u hu => getLsbD_extract w hu, fun w t ht => getLsbD_extract w (by omega), dataPositions_eq_filter,
    fun v w h => (extract_eq_extract_iff v w).2 fun q hq => h q ?_⟩
  rw [dataPositions_eq_filter, List.mem_filter] at hq
  exact of_decide_eq_true hq.2

/-! ## The four cases of HAM_DECODE -/

/-- Flipping the position the syndrome names gives a valid codeword: the re-check always accepts (40_codec.md R111). -/
theorem validCodeword_flip_syndrome {w : Codeword} (hs : syndrome w ≠ 0) (hc : check w 5 = true) :
    ValidCodeword (flip w ((syndrome w).toNat - 1)) := by
  have hpos : (syndrome w).toNat ≠ 0 := fun h => hs (BitVec.eq_of_toNat_eq h)
  have hlt : (syndrome w).toNat < 32 := (syndrome w).isLt
  have hq : (syndrome w).toNat - 1 < 32 := by omega
  have hname : syndrome (1#32 <<< ((syndrome w).toNat - 1)) = syndrome w := by
    rw [syndrome_single hq, Nat.sub_add_cancel (by omega), BitVec.ofNat_toNat, BitVec.setWidth_eq]
  rw [validCodeword_iff, flip, syndrome_xor, check_xor, hname, hc, check_overall_single hq]
  exact ⟨BitVec.xor_self, rfl⟩

section
variable (p : Params) {w : Codeword}

theorem hamDecode_of_clean (hs : syndrome w = 0) (hc : check w 5 = false) :
    hamDecode p w = { status := .clean, frag := some (extract w), checks := checks w, syndrome := 0, pos := none } := by
  simp [hamDecode, hs, hc]

theorem hamDecode_of_single (hs : syndrome w ≠ 0) (hc : check w 5 = true) :
    hamDecode p w =
      { status := .corrected, frag := some (extract (w ^^^ 1#32 <<< ((syndrome w).toNat - 1))), checks := checks w
        syndrome := syndrome w, pos := some ((syndrome w).toNat - 1) } := by
  have hvalid : checks (w ^^^ 1#32 <<< ((syndrome w).toNat - 1)) = 0 := validCodeword_flip_syndrome hs hc
  have hnotClean : ¬ (syndrome w = 0 ∧ check w 5 = false) := fun h => hs h.1
  simp only [hamDecode, if_neg hnotClean, if_pos (And.intro hs hc), flip]
  exact if_pos hvalid

theorem hamDecode_of_overall_correct (hs : syndrome w = 0) (hc : check w 5 = true) (hp : p.syndromeZero = .correctParity) :
    hamDecode p w = { status := .corrected, frag := some (extract w), checks := checks w, syndrome := 0, pos := some 31 } := by
  simp [hamDecode, hs, hc, hp]

theorem hamDecode_of_overall_reject (hs : syndrome w = 0) (hc : check w 5 = true) (hp : p.syndromeZero = .reject) :
    hamDecode p w = { status := .uncorrectable, frag := none, checks := checks w, syndrome := 0, pos := none } := by
  simp [hamDecode, hs, hc, hp]

theorem hamDecode_of_double (hs : syndrome w ≠ 0) (hc : check w 5 = false) :
    hamDecode p w = { status := .uncorrectable, frag := none, checks := checks w, syndrome := syndrome w, pos := none } := by
  simpa [hamDecode, hc] using hs

/-- A valid codeword is clean, and all the outputs say so (40_codec.md R106). -/
theorem hamDecode_of_validCodeword (hw : ValidCodeword w) :
    hamDecode p w = { status := .clean, frag := some (extract w), checks := 0, syndrome := 0, pos := none } := by
  obtain ⟨hs, hc⟩ := (validCodeword_iff w).1 hw
  rw [hamDecode_of_clean p hs hc, show checks w = 0 from hw]

end

/-- Settles O45: the cases of the pseudocode, the one with the re-check by R111. -/
theorem hamDecodeFollowsItsFourCases : Obligations.HamDecodeFollowsItsFourCases := fun p _ =>
  ⟨hamDecode_of_clean p, hamDecode_of_single p, hamDecode_of_overall_correct p, hamDecode_of_overall_reject p,
    hamDecode_of_double p⟩

theorem validCodeword_zeros : ValidCodeword 0x00000000 := rfl

theorem validCodeword_ones : ValidCodeword 0xFFFFFFFF := rfl

/-- Settles O48: neither constant fails a check, all of which cover an even number of positions. -/
theorem allZerosAndAllOnesAreCodewords : Obligations.AllZerosAndAllOnesAreCodewords := by
  have hzeros : extract 0x00000000 = 0 := rfl
  have hones : extract 0xFFFFFFFF = 0x3FFFFFF := rfl
  refine ⟨by decide, check_overall, List.length_range, fun p => ⟨?_, ?_⟩⟩
  · rw [hamDecode_of_validCodeword p validCodeword_zeros, hzeros]
  · rw [hamDecode_of_validCodeword p validCodeword_ones, hones]

/-! ## Valid codewords with errors -/

section
variable (p : Params) {v : Codeword} (hv : ValidCodeword v)
include hv

/-- A single error below position 31 is found and undone (40_codec.md R112). -/
theorem ValidCodeword.hamDecode_xor_single {q : Nat} (hq : q < 31) :
    hamDecode p (v ^^^ 1#32 <<< q) =
      { status := .corrected, frag := some (extract v), checks := checks (v ^^^ 1#32 <<< q)
        syndrome := BitVec.ofNat 5 (q + 1), pos := some q } := by
  have hs : syndrome (v ^^^ 1#32 <<< q) = BitVec.ofNat 5 (q + 1) := by
    rw [hv.syndrome_xor, syndrome_single (by omega)]
  have hname : (BitVec.ofNat 5 (q + 1)).toNat - 1 = q := by
    rw [← syndrome_single (by omega), toNat_syndrome_single hq, Nat.add_sub_cancel]
  have hne : syndrome (v ^^^ 1#32 <<< q) ≠ 0 := by rw [hv.syndrome_xor]; exact syndrome_single_ne_zero hq
  have hc : check (v ^^^ 1#32 <<< q) 5 = true := by rw [hv.check_overall_xor, check_overall_single (by omega)]
  rw [hamDecode_of_single p hne hc, hs, hname, BitVec.xor_assoc, BitVec.xor_self, BitVec.xor_zero]

end

/-- Settles O44: the syndrome names a single error, which is flipped back or, at position 31, no part of the fragment; two
errors pass the overall check, and their names do not cancel. -/
theorem singleErrorsAreCorrectedDoubleErrorsDetected : Obligations.SingleErrorsAreCorrectedDoubleErrorsDetected := by
  intro p v hv
  have hs31 : syndrome (v ^^^ 1#32 <<< 31) = 0 := by
    rw [hv.syndrome_xor]; exact syndrome_single (q := 31) (by omega)
  have hc31 : check (v ^^^ 1#32 <<< 31) 5 = true := by
    rw [hv.check_overall_xor, check_overall_single (by omega)]
  refine ⟨?_, fun q hq => ?_, fun hp => ?_, fun hp => ?_, fun q r hq hr hne => ?_⟩
  · rw [hamDecode_of_validCodeword p hv]
    exact ⟨rfl, rfl⟩
  · rw [hv.hamDecode_xor_single p (by omega)]
    exact ⟨rfl, rfl, rfl⟩
  · rw [hamDecode_of_overall_correct p hs31 hc31 hp, extract_xor_single_31]
    exact ⟨rfl, rfl, rfl⟩
  · rw [hamDecode_of_overall_reject p hs31 hc31 hp]
  · have hs : syndrome (v ^^^ (1#32 <<< q ^^^ 1#32 <<< r)) ≠ 0 := by
      rw [hv.syndrome_xor]
      exact syndrome_single_xor_single_ne_zero hq hr hne
    have hc : check (v ^^^ (1#32 <<< q ^^^ 1#32 <<< r)) 5 = false := by
      rw [hv.check_overall_xor, check_xor, check_overall_single hq, check_overall_single hr]
      rfl
    rw [BitVec.xor_assoc, hamDecode_of_double p hs hc]

/-- Settles O46: syndrome and overall check of the error select the case, the overall check by the parity of its weight. -/
theorem heavierErrorsFollowTheSameTable : Obligations.HeavierErrorsFollowTheSameTable := by
  refine ⟨fun p v e hv hodd => ?_, fun p v e hv heven => ?_, extract_xor_eq_iff, by decide, by decide, fun p hp => ?_⟩
  · have hc : check (v ^^^ e) 5 = true := by rw [hv.check_overall_xor, check_overall_eq_true_iff, hodd]
    rw [← hv.syndrome_xor e]
    refine ⟨fun hor => ?_, fun hp hs => by rw [hamDecode_of_overall_reject p hs hc hp]⟩
    by_cases hs : syndrome (v ^^^ e) = 0
    · have hp : p.syndromeZero = .correctParity := hor.resolve_right (not_not_intro hs)
      rw [hamDecode_of_overall_correct p hs hc hp, if_pos hs, show v ^^^ e ^^^ 0 = v ^^^ e from BitVec.xor_zero]
      exact ⟨rfl, rfl⟩
    · rw [hamDecode_of_single p hs hc, if_neg hs]
      exact ⟨rfl, rfl⟩
  · have hc : check (v ^^^ e) 5 = false := by rw [hv.check_overall_xor, check_overall_eq_false_iff, heven]
    rw [← hv.syndrome_xor e]
    refine ⟨fun hs => by rw [hamDecode_of_double p hs hc], fun hs => ?_⟩
    rw [hamDecode_of_clean p hs hc]
    exact ⟨rfl, rfl⟩
  · have hexample : syndrome 0xA468D630 = 0 ∧ check 0xA468D630 5 = true ∧ extract 0xA468D630 = 0x1234566 := by decide
    obtain ⟨hs, hc, hfrag⟩ := hexample
    rw [hamDecode_of_overall_correct p hs hc hp, hfrag]
    exact ⟨rfl, rfl, rfl, rfl⟩

end Sys2Proof.Machine
end

section
/-! The matching encoder (40_codec.md R116): where ENCODE puts each bit, and that all six checks of its codeword pass. -/

namespace Sys2Proof.Machine

/-! ## Bits set at listed positions -/

/-- Where each position is listed once, the word holds the bit listed for it. -/
theorem getLsbD_placeBits_of_mem {l : List (Nat × Bool)} (hlt : ∀ x ∈ l, x.1 < 32) (hnodup : (l.map Prod.fst).Nodup)
    {q : Nat} {b : Bool} (hmem : (q, b) ∈ l) (w : Codeword) : (placeBits w l).getLsbD q = b := by
  induction l generalizing w with
  | nil => simp at hmem
  | cons x l ih =>
    obtain ⟨hx, hl⟩ := List.nodup_cons.1 (List.map_cons ▸ hnodup)
    have htail : ∀ y ∈ l, y.1 < 32 := fun y hy => hlt y (List.mem_cons_of_mem x hy)
    obtain rfl | hmem := List.mem_cons.1 hmem
    · have hother : ∀ y ∈ l, y.1 < 32 ∧ y.1 ≠ q := fun y hy =>
        ⟨htail y hy, fun heq => hx (List.mem_map.2 ⟨y, hy, heq⟩)⟩
      rw [placeBits, getLsbD_placeBits_of_notMem _ _ _ hother, getLsbD_setBit _ _ _ _ (hlt _ List.mem_cons_self), if_pos rfl]
    · exact ih htail hl hmem _

/-! ## What ENCODE puts where -/

theorem getLsbD_encodeData (f : Frag) {u : Nat} (hu : u < 26) :
    (encodeData f).getLsbD (dataPositions.getD u 0) = f.getLsbD u := by
  have hfst : (dataPositions.zip ((List.range 26).map fun u => f.getLsbD u)).map Prod.fst = dataPositions :=
    List.map_fst_zip (by simp [dataPositions])
  have hlt : ∀ q ∈ dataPositions, q < 32 := by decide
  refine getLsbD_placeBits_of_mem (fun x hx => hlt _ (hfst ▸ List.mem_map_of_mem hx)) ?_ ?_ 0
  · rw [hfst]; decide
  refine List.mem_iff_getElem?.2 ⟨u, List.getElem?_zip_eq_some.2 ⟨?_, ?_⟩⟩
  · simp [dataPositions, hu]
  · simp [hu]

/-- The parity positions of the localizing checks are 0, 1, 3, 7, 15. -/
theorem two_pow_sub_one_lt {i : Nat} (hi : i < 5) : 2 ^ i - 1 < 31 := by
  have hpow : 2 ^ i ≤ 2 ^ 4 := Nat.pow_le_pow_right (by omega) (Nat.le_of_lt_succ hi)
  omega

/-- Outside the parity positions of the localizing checks, the second line of ENCODE leaves the word as it is. -/
theorem getLsbD_encodeLocal_of_ne (w : Codeword) {q : Nat} (h : ∀ i, i < 5 → q ≠ 2 ^ i - 1) :
    (encodeLocal w).getLsbD q = w.getLsbD q := by
  refine getLsbD_placeBits_of_notMem w _ q fun x hx => ?_
  obtain ⟨i, hi, rfl⟩ := List.mem_map.1 hx
  have hi : i < 5 := List.mem_range.1 hi
  exact ⟨(two_pow_sub_one_lt hi).trans (by omega), (h i hi).symm⟩

/-- Parity position `2^i - 1` gets the parity of the other positions of its check. -/
theorem getLsbD_encodeLocal_parity (w : Codeword) {i : Nat} (hi : i < 5) :
    (encodeLocal w).getLsbD (2 ^ i - 1) = parityOver w ((cov i).filter (fun q => q ≠ 2 ^ i - 1)) := by
  refine getLsbD_placeBits_of_mem (fun x hx => ?_) ?_ (List.mem_map.2 ⟨i, List.mem_range.2 hi, rfl⟩) w
  · obtain ⟨j, hj, rfl⟩ := List.mem_map.1 hx
    exact (two_pow_sub_one_lt (List.mem_range.1 hj)).trans (by omega)
  · rw [List.map_map]
    exact (by decide : ((List.range 5).map fun i => 2 ^ i - 1).Nodup)

theorem getLsbD_encodeFrag_of_ne (f : Frag) {q : Nat} (h : q ≠ 31) :
    (encodeFrag f).getLsbD q = (encodeLocal (encodeData f)).getLsbD q := by
  rw [encodeFrag, getLsbD_setBit _ _ _ _ (by omega), if_neg h]

theorem getLsbD_encodeFrag_31 (f : Frag) :
    (encodeFrag f).getLsbD 31 = parityOver (encodeLocal (encodeData f)) (List.range 31) := by
  rw [encodeFrag, getLsbD_setBit _ _ _ _ (by omega), if_pos rfl]

/-- The data positions carry the fragment: neither parity line touches them. -/
theorem extract_encodeFrag (f : Frag) : extract (encodeFrag f) = f := by
  have hdata : ∀ u, u < 26 → dataPositions.getD u 0 ≠ 31 ∧ ∀ i, i < 5 → dataPositions.getD u 0 ≠ 2 ^ i - 1 := by decide
  apply BitVec.eq_of_getLsbD_eq
  intro u hu
  obtain ⟨h31, hlocal⟩ := hdata u hu
  rw [getLsbD_extract _ hu, getLsbD_encodeFrag_of_ne f h31, getLsbD_encodeLocal_of_ne _ hlocal, getLsbD_encodeData f hu]

/-! ## The codeword is valid -/

/-- One of the positions may be taken out of a parity and counted for itself. -/
theorem parityOver_eq_xor_filter_ne (w : Codeword) {q : Nat} {qs : List Nat} (hnodup : qs.Nodup) (hmem : q ∈ qs) :
    parityOver w qs = (w.getLsbD q ^^ parityOver w (qs.filter (fun r => r ≠ q))) := by
  induction qs with
  | nil => simp at hmem
  | cons r qs ih =>
    obtain ⟨hr, hqs⟩ := List.nodup_cons.1 hnodup
    obtain rfl | hne := eq_or_ne q r
    · have hrest : qs.filter (fun r => r ≠ q) = qs :=
        List.filter_eq_self.2 fun r hr' => decide_eq_true fun heq => hr (heq ▸ hr')
      rw [parityOver_cons, List.filter_cons_of_neg (by simp), hrest]
    · have hq : q ∈ qs := (List.mem_cons.1 hmem).resolve_left hne
      rw [parityOver_cons, ih hqs hq, List.filter_cons_of_pos (by simpa using hne.symm), parityOver_cons,
        Bool.xor_left_comm]

/-- A localizing check covers its own parity position alone: `2^j` has bit `i` for `j = i` only. -/
theorem ne_parity_of_mem_cov {i j q : Nat} (hq : q ∈ cov i) (hne : q ≠ 2 ^ i - 1) : q ≠ 2 ^ j - 1 := by
  rintro rfl
  have hbit := (mem_cov.1 hq).2
  rw [Nat.sub_add_cancel Nat.one_le_two_pow, Nat.testBit_two_pow, decide_eq_true_iff] at hbit
  exact hne (hbit ▸ rfl)

theorem two_pow_sub_one_mem_cov {i : Nat} (hi : i < 5) : 2 ^ i - 1 ∈ cov i := by
  rw [mem_cov, Nat.sub_add_cancel Nat.one_le_two_pow]
  exact ⟨two_pow_sub_one_lt hi, Nat.testBit_two_pow_self⟩

/-- The parity position makes up for the others, which all lie where ENCODE's first line put the data. -/
theorem check_local_encodeFrag (f : Frag) {i : Nat} (hi : i < 5) : check (encodeFrag f) i = false := by
  have hparity : (encodeFrag f).getLsbD (2 ^ i - 1) =
      parityOver (encodeData f) ((cov i).filter (fun q => q ≠ 2 ^ i - 1)) := by
    rw [getLsbD_encodeFrag_of_ne f (two_pow_sub_one_lt hi).ne, getLsbD_encodeLocal_parity _ hi]
  have hothers : parityOver (encodeFrag f) ((cov i).filter (fun q => q ≠ 2 ^ i - 1)) =
      parityOver (encodeData f) ((cov i).filter (fun q => q ≠ 2 ^ i - 1)) := by
    refine parityOver_congr fun q hq => ?_
    obtain ⟨hcov, hne⟩ := List.mem_filter.1 hq
    rw [getLsbD_encodeFrag_of_ne f (mem_cov.1 hcov).1.ne,
      getLsbD_encodeLocal_of_ne _ fun j _ => ne_parity_of_mem_cov hcov (of_decide_eq_true hne)]
  rw [check_local _ hi, parityOver_eq_xor_filter_ne _ (nodup_cov i) (two_pow_sub_one_mem_cov hi), hparity, hothers,
    Bool.xor_self]

/-- Position 31 makes up for all the others. -/
theorem check_overall_encodeFrag (f : Frag) : check (encodeFrag f) 5 = false := by
  have hrest : parityOver (encodeFrag f) (List.range 31) = parityOver (encodeLocal (encodeData f)) (List.range 31) :=
    parityOver_congr fun q hq => getLsbD_encodeFrag_of_ne f (List.mem_range.1 hq).ne
  have hlast : parityOver (encodeFrag f) [31] = (encodeFrag f).getLsbD 31 := Bool.xor_false _
  rw [check_overall, List.range_succ, parityOver_append, hrest, hlast, getLsbD_encodeFrag_31, Bool.xor_self]

theorem validCodeword_encodeFrag (f : Frag) : ValidCodeword (encodeFrag f) :=
  (validCodeword_iff _).2
    ⟨(syndrome_eq_zero_iff _).2 fun _ hi => check_local_encodeFrag f hi, check_overall_encodeFrag f⟩

/-- Settles O49: the codeword is valid, and its data positions hold the fragment. -/
theorem decodingAnEncodedFragmentIsClean : Obligations.DecodingAnEncodedFragmentIsClean := by
  intro p f
  rw [hamDecode_of_validCodeword p (validCodeword_encodeFrag f), extract_encodeFrag]

end Sys2Proof.Machine
end

section
/-! The registers of the de-interleaver after a sequence of fragments (41_deinterleave.md, R130-R131): what is emitted stays, so a
proof about a fragment looks at the run up to it. -/

namespace Sys2Proof.Machine

/-- The registers after DEINT_BEGIN and a DEINT_STEP for each fragment. -/
def Deint.after (p : Params) (fs : List Frag) : Deint :=
  fs.foldl (fun d frag => d.step p frag) Deint.clear

theorem deinterleave_eq_out_after (p : Params) (fs : List Frag) : deinterleave p fs = (Deint.after p fs).out := rfl

theorem Deint.after_concat (p : Params) (fs : List Frag) (f : Frag) :
    Deint.after p (fs ++ [f]) = (Deint.after p fs).step p f :=
  List.foldl_concat _ _ _ _

theorem Deint.step_of_separateCarry {p : Params} (hp : p.packing = .separateCarry) (d : Deint) (f : Frag) :
    d.step p f = d.stepSeparate p.carryOrder f := by
  rw [Deint.step, hp]

theorem Deint.step_of_stream {p : Params} (hp : p.packing = .stream) (d : Deint) (f : Frag) :
    d.step p f = d.stepStream f := by
  rw [Deint.step, hp]

theorem Deint.out_prefix_step (p : Params) (d : Deint) (f : Frag) : d.out <+: (d.step p f).out := by
  cases hp : p.packing with
  | separateCarry =>
    rw [Deint.step_of_separateCarry hp, Deint.stepSeparate]
    split
    · rw [List.append_assoc]; exact List.prefix_append _ _
    · exact List.prefix_append _ _
  | stream =>
    rw [Deint.step_of_stream hp]
    exact List.prefix_append _ _

theorem deinterleave_prefix_append (p : Params) (fs gs : List Frag) : deinterleave p fs <+: deinterleave p (fs ++ gs) := by
  induction gs using List.reverseRecOn with
  | nil => rw [List.append_nil]
  | append_singleton gs g ih =>
    rw [← List.append_assoc, deinterleave_eq_out_after p (fs ++ gs ++ [g]), Deint.after_concat]
    exact ih.trans (Deint.out_prefix_step p _ g)

/-- A byte that stands in the output after fragment `i` stands there for good. -/
theorem getElem?_deinterleave_of_step (p : Params) {fs : List Frag} {i n : Nat} {f : Frag} {b : Byte}
    (hf : fs[i]? = some f) (hb : ((Deint.after p (fs.take i)).step p f).out[n]? = some b) :
    (deinterleave p fs)[n]? = some b := by
  have htake : fs.take (i + 1) = fs.take i ++ [f] := by rw [List.take_add_one, hf]; rfl
  have hprefix : deinterleave p (fs.take (i + 1)) <+: deinterleave p fs := by
    simpa only [List.take_append_drop] using deinterleave_prefix_append p (fs.take (i + 1)) (fs.drop (i + 1))
  rw [htake, deinterleave_eq_out_after p (fs.take i ++ [f]), Deint.after_concat] at hprefix
  obtain ⟨rest, hrest⟩ := hprefix
  obtain ⟨hn, -⟩ := List.getElem?_eq_some_iff.1 hb
  rw [← hrest, List.getElem?_append_left hn, hb]

end Sys2Proof.Machine
end

section
/-! SEPARATE_CARRY (41_deinterleave.md R132-R134, R137): the invariant of the run, and where the bytes and the carry bits of each
fragment go. -/

namespace Sys2Proof.Machine

/-! ## One step -/

theorem getLsbD_setBit_byte (v : Byte) {k : Nat} (hk : k < 8) (b : Bool) (j : Nat) :
    (setBit v k b).getLsbD j = if j = k then b else v.getLsbD j := by
  obtain rfl | hne := eq_or_ne j k
  · cases b <;> simp [setBit, hk]
  · have hone : (1#8 <<< k).getLsbD j = false :=
      (BitVec.getLsbD_twoPow k j).trans (by rw [decide_eq_false hne.symm, Bool.and_false])
    by_cases hj : j < 8
    · rw [setBit, BitVec.getLsbD_or, BitVec.getLsbD_and, BitVec.getLsbD_not, apply_ite (BitVec.getLsbD · j), hone]
      simp [hj, hne]
    · rw [BitVec.getLsbD_of_ge _ _ (by omega), BitVec.getLsbD_of_ge _ _ (by omega), if_neg hne]

/-- CARRY with the last two bits of a fragment written at CARRY_CNT (R132). -/
def Deint.collect (d : Deint) (f : Frag) : BitVec 8 :=
  setBit (setBit d.carry d.carryCnt (f.getLsbD 1)) (d.carryCnt + 1) (f.getLsbD 0)

theorem Deint.getLsbD_collect_of_lt (d : Deint) (f : Frag) (hcnt : d.carryCnt < 7) {k : Nat} (hk : k < d.carryCnt) :
    (d.collect f).getLsbD k = d.carry.getLsbD k := by
  rw [Deint.collect, getLsbD_setBit_byte _ (by omega), if_neg (by omega), getLsbD_setBit_byte _ (by omega), if_neg hk.ne]

theorem Deint.getLsbD_collect_carryCnt_add (d : Deint) (f : Frag) (hcnt : d.carryCnt < 7) {b : Nat} (hb : b < 2) :
    (d.collect f).getLsbD (d.carryCnt + b) = logicalBit f (24 + b) := by
  rw [Deint.collect, getLsbD_setBit_byte _ (by omega), getLsbD_setBit_byte _ (by omega)]
  match b, hb with
  | 0, _ => rw [if_neg (by omega), if_pos (by omega)]; rfl
  | 1, _ => rw [if_pos rfl]; rfl

/-- The fourth fragment of a group emits the carry byte. -/
theorem Deint.stepSeparate_of_carryCnt_eq_six (order : CarryOrder) {d : Deint} (f : Frag) (h : d.carryCnt = 6) :
    d.stepSeparate order f =
      { carry := 0, carryCnt := 0, out := d.out ++ regularBytes f ++ [carryByte order (d.collect f)] } :=
  if_pos (by omega)

theorem Deint.stepSeparate_of_carryCnt_ne_six (order : CarryOrder) {d : Deint} (f : Frag) (h : d.carryCnt ≠ 6) :
    d.stepSeparate order f = { carry := d.collect f, carryCnt := d.carryCnt + 2, out := d.out ++ regularBytes f } :=
  if_neg (by omega)

theorem Deint.out_stepSeparate_prefix (order : CarryOrder) (d : Deint) (f : Frag) :
    d.out ++ regularBytes f <+: (d.stepSeparate order f).out := by
  by_cases h : d.carryCnt = 6
  · rw [Deint.stepSeparate_of_carryCnt_eq_six order f h]; exact List.prefix_append _ _
  · rw [Deint.stepSeparate_of_carryCnt_ne_six order f h]

/-- FIRST_IS_MSB puts carry bit `k` at bit `7 - k` (R134). -/
theorem getLsbD_carryByte_firstIsMsb (carry : BitVec 8) {k : Nat} (hk : k < 8) :
    (carryByte .firstIsMsb carry).getLsbD (7 - k) = carry.getLsbD k := by
  rw [carryByte, BitVec.getLsbD_reverse, BitVec.getMsbD_eq_getLsbD, decide_eq_true (by omega), Bool.true_and]
  congr 1; omega

theorem carryByte_injective (order : CarryOrder) : Function.Injective (carryByte order) := by
  cases order with
  | firstIsLsb => exact fun _ _ h => h
  | firstIsMsb =>
    refine fun c c' h => BitVec.eq_of_getLsbD_eq fun k hk => ?_
    rw [← getLsbD_carryByte_firstIsMsb c hk, h, getLsbD_carryByte_firstIsMsb c' hk]

/-! ## The run -/

/-- The bits left to the carry, two for each fragment, in the order they are collected: group `g` has bits `8g..8g+7`. -/
def carriedBit (fs : List Frag) (k : Nat) : Bool :=
  logicalBit (fs.getD (k / 2) 0) (24 + k % 2)

theorem carriedBit_append_left (fs gs : List Frag) {k : Nat} (hk : k < 2 * fs.length) :
    carriedBit (fs ++ gs) k = carriedBit fs k := by
  rw [carriedBit, List.getD_append _ _ _ _ (by omega), carriedBit]

theorem carriedBit_of_getElem? {fs : List Frag} {i : Nat} {f : Frag} (hf : fs[i]? = some f) {b : Nat} (hb : b < 2) :
    carriedBit fs (2 * i + b) = logicalBit f (24 + b) := by
  rw [carriedBit, List.getD_eq_getElem?_getD, show (2 * i + b) / 2 = i by omega, hf,
    show (2 * i + b) % 2 = b by omega, Option.getD_some]

theorem carriedBit_concat (fs : List Frag) (f : Frag) {b : Nat} (hb : b < 2) :
    carriedBit (fs ++ [f]) (2 * fs.length + b) = logicalBit f (24 + b) :=
  carriedBit_of_getElem? List.getElem?_concat_length hb

/-- What the registers hold after the fragments `fs`. -/
structure SeparateInv (fs : List Frag) (d : Deint) : Prop where
  length_out : d.out.length = 13 * (fs.length / 4) + 3 * (fs.length % 4)
  carryCnt : d.carryCnt = 2 * (fs.length % 4)
  carry : ∀ k, k < d.carryCnt → d.carry.getLsbD k = carriedBit fs (8 * (fs.length / 4) + k)

theorem SeparateInv.getLsbD_collect {fs : List Frag} {d : Deint} (h : SeparateInv fs d) (f : Frag) {k : Nat}
    (hk : k < d.carryCnt + 2) : (d.collect f).getLsbD k = carriedBit (fs ++ [f]) (8 * (fs.length / 4) + k) := by
  have hcnt := h.carryCnt
  by_cases hold : k < d.carryCnt
  · rw [d.getLsbD_collect_of_lt f (by omega) hold, h.carry k hold, carriedBit_append_left _ _ (by omega)]
  · obtain ⟨b, rfl⟩ := Nat.exists_eq_add_of_le (Nat.le_of_not_lt hold)
    have hpos : 8 * (fs.length / 4) + (d.carryCnt + b) = 2 * fs.length + b := by omega
    rw [d.getLsbD_collect_carryCnt_add f (by omega) (by omega), hpos, carriedBit_concat _ _ (by omega)]

theorem SeparateInv.stepSeparate {fs : List Frag} {d : Deint} (h : SeparateInv fs d) (order : CarryOrder) (f : Frag) :
    SeparateInv (fs ++ [f]) (d.stepSeparate order f) := by
  have hlen : (fs ++ [f]).length = fs.length + 1 := List.length_append
  have hout := h.length_out
  have hcnt := h.carryCnt
  by_cases hfull : d.carryCnt = 6
  · rw [Deint.stepSeparate_of_carryCnt_eq_six order f hfull]
    refine ⟨?_, ?_, fun _ hk => (Nat.not_lt_zero _ hk).elim⟩
    · simp only [List.length_append, regularBytes, List.length_cons, List.length_nil]; omega
    · show 0 = _; omega
  · rw [Deint.stepSeparate_of_carryCnt_ne_six order f hfull]
    refine ⟨?_, ?_, fun k hk => ?_⟩
    · simp only [List.length_append, regularBytes, List.length_cons, List.length_nil]; omega
    · show d.carryCnt + 2 = _; omega
    · rw [show (fs ++ [f]).length / 4 = fs.length / 4 by omega]
      exact h.getLsbD_collect f hk

theorem separateInv_after {p : Params} (hp : p.packing = .separateCarry) (fs : List Frag) :
    SeparateInv fs (Deint.after p fs) := by
  induction fs using List.reverseRecOn with
  | nil => exact ⟨rfl, rfl, fun _ hk => (Nat.not_lt_zero _ hk).elim⟩
  | append_singleton fs f ih =>
    rw [Deint.after_concat, Deint.step_of_separateCarry hp]
    exact ih.stepSeparate p.carryOrder f

/-! ## The layout -/

section
variable {p : Params} {fs : List Frag}

/-- The three bytes of fragment `4g + j` begin at output byte `13g + 3j`. -/
theorem getElem?_deinterleave_regular (hp : p.packing = .separateCarry) {g j : Nat} {f : Frag} (hj : j < 4)
    (hf : fs[4 * g + j]? = some f) {r : Nat} (hr : r < 3) :
    (deinterleave p fs)[13 * g + 3 * j + r]? = (regularBytes f)[r]? := by
  obtain ⟨hlt, -⟩ := List.getElem?_eq_some_iff.1 hf
  have hstart := (separateInv_after hp (fs.take (4 * g + j))).length_out
  rw [List.length_take_of_le hlt.le, show 13 * ((4 * g + j) / 4) + 3 * ((4 * g + j) % 4) = 13 * g + 3 * j by omega] at hstart
  have hlen : r < (regularBytes f).length := hr
  rw [List.getElem?_eq_getElem hlen]
  refine getElem?_deinterleave_of_step p hf ?_
  obtain ⟨rest, hrest⟩ := Deint.out_stepSeparate_prefix p.carryOrder (Deint.after p (fs.take (4 * g + j))) f
  rw [Deint.step_of_separateCarry hp, ← hrest, List.append_assoc, List.getElem?_append_right (by omega), hstart,
    Nat.add_sub_cancel_left, List.getElem?_append_left hlen, List.getElem?_eq_getElem hlen]

/-- The carry byte of a complete group holds the group's eight carry bits. -/
theorem exists_carryByte_deinterleave (hp : p.packing = .separateCarry) {g : Nat} (hg : 4 * g + 4 ≤ fs.length) :
    ∃ carry : BitVec 8, (deinterleave p fs)[13 * g + 12]? = some (carryByte p.carryOrder carry) ∧
      ∀ k, k < 8 → carry.getLsbD k = carriedBit fs (8 * g + k) := by
  have hlast : 4 * g + 3 < fs.length := hg
  have hf := List.getElem?_eq_getElem hlast
  have hinv := separateInv_after hp (fs.take (4 * g + 3))
  have hlen : (fs.take (4 * g + 3)).length = 4 * g + 3 := List.length_take_of_le hlast.le
  have hstart := hinv.length_out
  have hcnt : (Deint.after p (fs.take (4 * g + 3))).carryCnt = 6 := by rw [hinv.carryCnt]; omega
  refine ⟨(Deint.after p (fs.take (4 * g + 3))).collect fs[4 * g + 3], getElem?_deinterleave_of_step p hf ?_, fun k hk => ?_⟩
  · have hpos : 13 * g + 12 = ((Deint.after p (fs.take (4 * g + 3))).out ++ regularBytes fs[4 * g + 3]).length := by
      simp only [List.length_append, regularBytes, List.length_cons, List.length_nil]; omega
    rw [Deint.step_of_separateCarry hp, Deint.stepSeparate_of_carryCnt_eq_six _ _ hcnt, hpos, List.getElem?_concat_length]
  · have htake : fs.take (4 * g + 3) ++ [fs[4 * g + 3]] = fs.take (4 * g + 4) := List.take_append_getElem hlast
    have hwhole := carriedBit_append_left (fs.take (4 * g + 4)) (fs.drop (4 * g + 4)) (k := 8 * g + k)
      (by rw [List.length_take_of_le hg]; omega)
    rw [hinv.getLsbD_collect _ (by omega), htake, hlen, show (4 * g + 3) / 4 = g by omega, ← hwhole, List.take_append_drop]

/-- Settles O50: the bytes a step appends, and the bits the carry has collected when the group is complete. -/
theorem separateCarryLayout : Obligations.SeparateCarryLayout := by
  intro p fs g j f hp hj hf
  have hregular := fun r (hr : r < 3) => getElem?_deinterleave_regular hp hj hf hr
  refine ⟨hregular 0 (by omega), hregular 1 (by omega), hregular 2 (by omega), fun hg => ?_⟩
  obtain ⟨carry, hbyte, hcarry⟩ := exists_carryByte_deinterleave hp hg
  have hbit : ∀ b, b < 2 → carry.getLsbD (2 * j + b) = logicalBit f (24 + b) := fun b hb => by
    rw [hcarry _ (by omega), show 8 * g + (2 * j + b) = 2 * (4 * g + j) + b by omega, carriedBit_of_getElem? hf hb]
  refine ⟨_, hbyte, fun horder => ?_, fun horder => ?_⟩
  · rw [horder]
    exact ⟨hbit 0 (by omega), hbit 1 (by omega)⟩
  · rw [horder]
    exact ⟨(getLsbD_carryByte_firstIsMsb carry (by omega)).trans (hbit 0 (by omega)),
      (getLsbD_carryByte_firstIsMsb carry (by omega)).trans (hbit 1 (by omega))⟩

end

end Sys2Proof.Machine
end

section
/-! STREAM (41_deinterleave.md R136): output followed by carry is the stream of the fragments' bits, first bit most significant. -/

namespace Sys2Proof.Machine

/-! ## One step -/

/-- `acc` of R136: the carry, then the fragment. -/
def Deint.acc (d : Deint) (f : Frag) : Nat :=
  d.carry.toNat <<< 26 ||| f.toNat

theorem Deint.stepStream_eq (d : Deint) (f : Frag) :
    d.stepStream f =
      { carry := BitVec.ofNat 8 (d.acc f % 2 ^ ((d.carryCnt + 26) % 8))
        carryCnt := (d.carryCnt + 26) % 8
        out := d.out ++ streamBytes (d.acc f) (d.carryCnt + 26) ((d.carryCnt + 26) / 8) } := rfl

theorem Deint.testBit_acc_of_lt (d : Deint) (f : Frag) {u : Nat} (hu : u < 26) : (d.acc f).testBit u = f.getLsbD u := by
  rw [Deint.acc, Nat.testBit_or, Nat.testBit_shiftLeft, decide_eq_false (by omega), Bool.false_and, Bool.false_or,
    BitVec.testBit_toNat]

theorem Deint.testBit_acc_add (d : Deint) (f : Frag) (u : Nat) : (d.acc f).testBit (26 + u) = d.carry.getLsbD u := by
  rw [Deint.acc, Nat.testBit_or, Nat.testBit_shiftLeft, decide_eq_true (by omega), Bool.true_and, Nat.add_sub_cancel_left,
    BitVec.testBit_toNat, BitVec.testBit_toNat, BitVec.getLsbD_of_ge f _ (by omega), Bool.or_false]

@[simp] theorem length_streamBytes (acc nb c : Nat) : (streamBytes acc nb c).length = c := by
  induction c generalizing nb with
  | zero => rfl
  | succ c ih => rw [streamBytes, List.length_cons, ih]

/-- The loop takes the bits of `acc` from bit `nb - 1` downwards. -/
theorem getLsbD_streamBytes (acc : Nat) {nb c k m : Nat} (hc : 8 * c ≤ nb) (hk : k < c) (hm : m < 8) :
    ((streamBytes acc nb c).getD k 0).getLsbD (7 - m) = acc.testBit (nb - 1 - (8 * k + m)) := by
  induction c generalizing nb k with
  | zero => omega
  | succ c ih =>
    cases k with
    | zero =>
      rw [streamBytes, List.getD_cons_zero, BitVec.getLsbD_ofNat, decide_eq_true (by omega), Bool.true_and,
        Nat.testBit_shiftRight]
      congr 1; omega
    | succ k =>
      rw [streamBytes, List.getD_cons_succ, ih (by omega) (by omega)]
      congr 1; omega

/-! ## The run -/

/-- Bit `i` of the fragments laid end to end in logical order (20_memory.md R55). -/
def streamBit (fs : List Frag) (i : Nat) : Bool :=
  logicalBit (fs.getD (i / 26) 0) (i % 26)

theorem streamBit_append_left (fs gs : List Frag) {i : Nat} (hi : i < 26 * fs.length) :
    streamBit (fs ++ gs) i = streamBit fs i := by
  rw [streamBit, List.getD_append _ _ _ _ (by omega), streamBit]

theorem streamBit_mul_add (fs : List Frag) (i : Nat) {t : Nat} (ht : t < 26) :
    streamBit fs (26 * i + t) = logicalBit (fs.getD i 0) t := by
  rw [streamBit, show (26 * i + t) / 26 = i by omega, show (26 * i + t) % 26 = t by omega]

theorem streamBit_concat (fs : List Frag) (f : Frag) {t : Nat} (ht : t < 26) :
    streamBit (fs ++ [f]) (26 * fs.length + t) = logicalBit f t := by
  rw [streamBit_mul_add _ _ ht, List.getD_append_right _ _ _ _ le_rfl, Nat.sub_self, List.getD_cons_zero]

/-- What the registers hold after the fragments `fs`. -/
structure StreamInv (fs : List Frag) (d : Deint) : Prop where
  carryCnt_lt : d.carryCnt < 8
  total : 8 * d.out.length + d.carryCnt = 26 * fs.length
  out : ∀ k m, k < d.out.length → m < 8 → (d.out.getD k 0).getLsbD (7 - m) = streamBit fs (8 * k + m)
  carry : ∀ m, m < d.carryCnt → d.carry.getLsbD (d.carryCnt - 1 - m) = streamBit fs (8 * d.out.length + m)

/-- `acc` holds the bits of the stream that are not in the output yet. -/
theorem StreamInv.testBit_acc {fs : List Frag} {d : Deint} (h : StreamInv fs d) (f : Frag) {m : Nat}
    (hm : m < d.carryCnt + 26) :
    (d.acc f).testBit (d.carryCnt + 26 - 1 - m) = streamBit (fs ++ [f]) (8 * d.out.length + m) := by
  have htotal := h.total
  by_cases hold : m < d.carryCnt
  · rw [show d.carryCnt + 26 - 1 - m = 26 + (d.carryCnt - 1 - m) by omega, Deint.testBit_acc_add, h.carry m hold,
      streamBit_append_left _ _ (by omega)]
  · obtain ⟨t, rfl⟩ := Nat.exists_eq_add_of_le (Nat.le_of_not_lt hold)
    rw [show d.carryCnt + 26 - 1 - (d.carryCnt + t) = 25 - t by omega, Deint.testBit_acc_of_lt _ _ (by omega),
      show 8 * d.out.length + (d.carryCnt + t) = 26 * fs.length + t by omega, streamBit_concat _ _ (by omega), logicalBit]

theorem StreamInv.stepStream {fs : List Frag} {d : Deint} (h : StreamInv fs d) (f : Frag) :
    StreamInv (fs ++ [f]) (d.stepStream f) := by
  have htotal := h.total
  rw [Deint.stepStream_eq]
  refine ⟨Nat.mod_lt _ (by omega), ?_, fun k m hk hm => ?_, fun m (hm : m < (d.carryCnt + 26) % 8) => ?_⟩
  · simp only [List.length_append, length_streamBytes, List.length_cons, List.length_nil]
    omega
  · rw [List.length_append, length_streamBytes] at hk
    by_cases hold : k < d.out.length
    · rw [List.getD_append _ _ _ _ hold, h.out k m hold hm, streamBit_append_left _ _ (by omega)]
    · obtain ⟨k, rfl⟩ := Nat.exists_eq_add_of_le (Nat.le_of_not_lt hold)
      rw [List.getD_append_right _ _ _ _ (by omega), Nat.add_sub_cancel_left,
        getLsbD_streamBytes _ (by omega) (by omega) hm, h.testBit_acc f (by omega)]
      congr 1; omega
  · have hleft := h.testBit_acc f (m := 8 * ((d.carryCnt + 26) / 8) + m) (by omega)
    show (BitVec.ofNat 8 _).getLsbD ((d.carryCnt + 26) % 8 - 1 - m) = _
    rw [BitVec.getLsbD_ofNat, decide_eq_true (by omega), Bool.true_and, Nat.testBit_mod_two_pow,
      decide_eq_true (by omega), Bool.true_and, List.length_append, length_streamBytes, Nat.mul_add, Nat.add_assoc, ← hleft]
    congr 1; omega

theorem streamInv_after {p : Params} (hp : p.packing = .stream) (fs : List Frag) : StreamInv fs (Deint.after p fs) := by
  induction fs using List.reverseRecOn with
  | nil => exact ⟨Nat.zero_lt_succ 7, rfl, fun _ _ hk => (Nat.not_lt_zero _ hk).elim, fun _ hm => (Nat.not_lt_zero _ hm).elim⟩
  | append_singleton fs f ih =>
    rw [Deint.after_concat, Deint.step_of_stream hp]
    exact ih.stepStream f

/-- Settles O51: the output part of the invariant of the run. -/
theorem streamLayout : Obligations.StreamLayout :=
  fun _ fs k m hp hm hk => (streamInv_after hp fs).out k m hk hm

end Sys2Proof.Machine
end

section
/-! The laws of both packings (41_deinterleave.md R138, R139): the output's length, and that whole groups are packed without loss. -/

namespace Sys2Proof.Machine

/-! ## The length -/

theorem length_deinterleave (p : Params) (fs : List Frag) : (deinterleave p fs).length = dlen p.packing fs.length := by
  cases hp : p.packing with
  | separateCarry => exact (separateInv_after hp fs).length_out
  | stream =>
    obtain ⟨hcnt, htotal, -, -⟩ := streamInv_after hp fs
    rw [deinterleave_eq_out_after, dlen]
    omega

/-- Settles O52: the length from the two invariants of the run, the formulas by arithmetic. -/
theorem outputLengthIsDlen : Obligations.OutputLengthIsDlen := by
  refine ⟨length_deinterleave, fun n => ⟨rfl, rfl, ?_, ?_⟩⟩ <;> simp only [dlen] <;> omega

theorem dlen_four_mul (packing : Packing) (q : Nat) : dlen packing (4 * q) = 13 * q := by
  cases packing <;> simp only [dlen] <;> omega

/-! ## Whole groups -/

/-- A fragment is determined by its three bytes and its two carry bits. -/
theorem frag_eq_of_regularBytes_eq {f f' : Frag} (hregular : regularBytes f = regularBytes f')
    (hcarry : ∀ b, b < 2 → logicalBit f (24 + b) = logicalBit f' (24 + b)) : f = f' := by
  injection hregular with hhigh hrest
  injection hrest with hmid hrest
  injection hrest with hlow
  have hfield : ∀ {start u : Nat}, f.extractLsb' start 8 = f'.extractLsb' start 8 → start ≤ u → u < start + 8 →
      f.getLsbD u = f'.getLsbD u := fun {start u} h hle hlt => by
    have hbit := congrArg (BitVec.getLsbD · (u - start)) h
    simpa only [BitVec.getLsbD_extractLsb', decide_eq_true (show u - start < 8 by omega), Bool.true_and,
      Nat.add_sub_cancel' hle] using hbit
  refine BitVec.eq_of_getLsbD_eq fun u hu => ?_
  obtain h | h | h | h : 18 ≤ u ∨ (10 ≤ u ∧ u < 18) ∨ (2 ≤ u ∧ u < 10) ∨ u < 2 := by omega
  · exact hfield hhigh h hu
  · exact hfield hmid h.1 h.2
  · exact hfield hlow h.1 h.2
  · have hbit := hcarry (1 - u) (by omega)
    rwa [logicalBit, logicalBit, show 25 - (24 + (1 - u)) = u by omega] at hbit

section
variable {p : Params} {q : Nat} {fs fs' : List Frag}

/-- Under SEPARATE_CARRY the output of whole groups determines the three bytes and the carry bits of each fragment. -/
theorem eq_of_deinterleave_eq_of_separateCarry (hp : p.packing = .separateCarry) (hlen : fs.length = 4 * q)
    (hlen' : fs'.length = 4 * q) (heq : deinterleave p fs = deinterleave p fs') : fs = fs' := by
  refine List.ext_getElem (hlen.trans hlen'.symm) fun i hi hi' => ?_
  obtain ⟨g, j, hj, rfl⟩ : ∃ g j, j < 4 ∧ i = 4 * g + j := ⟨i / 4, i % 4, by omega, by omega⟩
  have hf := List.getElem?_eq_getElem hi
  have hf' := List.getElem?_eq_getElem hi'
  refine frag_eq_of_regularBytes_eq (List.ext_getElem? fun r => ?_) fun b hb => ?_
  · by_cases hr : r < 3
    · rw [← getElem?_deinterleave_regular hp hj hf hr, heq, getElem?_deinterleave_regular hp hj hf' hr]
    · have hr : 3 ≤ r := by omega
      rw [List.getElem?_eq_none_iff.2 hr, List.getElem?_eq_none_iff.2 hr]
  · obtain ⟨carry, hbyte, hcarry⟩ := exists_carryByte_deinterleave (fs := fs) hp (g := g) (by omega)
    obtain ⟨carry', hbyte', hcarry'⟩ := exists_carryByte_deinterleave (fs := fs') hp (g := g) (by omega)
    have hsame : carry = carry' := carryByte_injective _ (Option.some.inj (by rw [← hbyte, heq, hbyte']))
    have hpos : 2 * (4 * g + j) + b = 8 * g + (2 * j + b) := by omega
    rw [← carriedBit_of_getElem? hf hb, ← carriedBit_of_getElem? hf' hb, hpos, ← hcarry _ (by omega), hsame,
      hcarry' _ (by omega)]

/-- Under STREAM the output of whole groups is the whole stream of bits. -/
theorem eq_of_deinterleave_eq_of_stream (hp : p.packing = .stream) (hlen : fs.length = 4 * q)
    (hlen' : fs'.length = 4 * q) (heq : deinterleave p fs = deinterleave p fs') : fs = fs' := by
  have hstream : ∀ n, n < 26 * (4 * q) → streamBit fs n = streamBit fs' n := fun n hn => by
    have hk : n / 8 < (deinterleave p fs).length := by
      rw [length_deinterleave, hlen, dlen_four_mul]; omega
    have hbit := streamLayout p fs (n / 8) (n % 8) hp (by omega) hk
    have hbit' := streamLayout p fs' (n / 8) (n % 8) hp (by omega) (heq ▸ hk)
    rw [Nat.div_add_mod] at hbit hbit'
    exact hbit.symm.trans (heq ▸ hbit')
  refine List.ext_getElem (hlen.trans hlen'.symm) fun i hi hi' => BitVec.eq_of_getLsbD_eq fun u hu => ?_
  have hbit := hstream (26 * i + (25 - u)) (by omega)
  rw [streamBit_mul_add _ _ (by omega), streamBit_mul_add _ _ (by omega), List.getD_eq_getElem _ _ hi,
    List.getD_eq_getElem _ _ hi', logicalBit, logicalBit, Nat.sub_sub_self (by omega)] at hbit
  exact hbit

/-- R139, first half: no two sequences of whole groups have the same output. -/
theorem eq_of_deinterleave_eq (hlen : fs.length = 4 * q) (hlen' : fs'.length = 4 * q)
    (heq : deinterleave p fs = deinterleave p fs') : fs = fs' := by
  cases hp : p.packing with
  | separateCarry => exact eq_of_deinterleave_eq_of_separateCarry hp hlen hlen' heq
  | stream => exact eq_of_deinterleave_eq_of_stream hp hlen hlen' heq

end

theorem length_deinterleave_groups (p : Params) {q : Nat} {fs : List Frag} (h : fs.length = 4 * q) :
    (deinterleave p fs).length = 13 * q := by
  rw [length_deinterleave, h, dlen_four_mul]

/-- De-interleaving of `q` whole groups, between sequences of fixed length. -/
def deinterleaveGroups (p : Params) (q : Nat) (fs : List.Vector Frag (4 * q)) : List.Vector Byte (13 * q) :=
  ⟨deinterleave p fs.toList, length_deinterleave_groups p fs.toList_length⟩

/-- `4q` fragments are as many bits as `13q` bytes. -/
theorem card_groups (q : Nat) :
    Fintype.card (List.Vector Frag (4 * q)) = Fintype.card (List.Vector Byte (13 * q)) := by
  simp only [card_vector, ← FinEnum.card_eq_fintypeCard, FinEnum.card_bitVec, ← pow_mul]
  congr 1; omega

theorem deinterleaveGroups_bijective (p : Params) (q : Nat) : Function.Bijective (deinterleaveGroups p q) := by
  refine (Fintype.bijective_iff_injective_and_card _).2 ⟨fun v v' h => ?_, card_groups q⟩
  exact Subtype.ext (eq_of_deinterleave_eq v.toList_length v'.toList_length (congrArg List.Vector.toList h))

/-- Settles O53: an injective map between finite sets of the same size (R137 and R138) is a bijection. -/
theorem wholeGroupsAreABijection : Obligations.WholeGroupsAreABijection := by
  intro p q bytes hbytes
  obtain ⟨v, hv⟩ := (deinterleaveGroups_bijective p q).surjective ⟨bytes, hbytes⟩
  have hout : deinterleave p v.toList = bytes := congrArg List.Vector.toList hv
  exact ⟨v.toList, ⟨v.toList_length, hout⟩, fun fs' hlen heq =>
    eq_of_deinterleave_eq hlen v.toList_length (heq.trans hout.symm)⟩

end Sys2Proof.Machine
end

section
/-! The packet decoder and the padding trim (42_packet_decode.md): PACKET_DECODE in terms of the codewords' fragments, TZ as the
largest run, and which payloads are terminal. -/

namespace Sys2Proof.Machine

/-! ## PACKET_DECODE (R151-R153) -/

/-- HAM_DECODE gives a fragment for every word but an uncorrectable one (40_codec.md R105). -/
theorem frag_hamDecode_isNone_iff (p : Params) (cw : Codeword) :
    (hamDecode p cw).frag.isNone = true ↔ (hamDecode p cw).status = .uncorrectable := by
  by_cases hs : syndrome cw = 0 <;> cases hc : check cw 5
  · simp [hamDecode_of_clean p hs hc]
  · cases hp : p.syndromeZero with
    | correctParity => simp [hamDecode_of_overall_correct p hs hc hp]
    | reject => simp [hamDecode_of_overall_reject p hs hc hp]
  · simp [hamDecode_of_double p hs hc]
  · simp [hamDecode_of_single p hs hc]

/-- The index of the first uncorrectable codeword. -/
def firstUncorrectable (p : Params) (cws : List Codeword) : Option Nat :=
  cws.findIdx? fun cw => (hamDecode p cw).frag.isNone

theorem firstUncorrectable_eq_some_iff {p : Params} {cws : List Codeword} {k : Nat} :
    firstUncorrectable p cws = some k ↔
      ∃ cw, cws[k]? = some cw ∧ (hamDecode p cw).status = .uncorrectable ∧
        ∀ j cw', j < k → cws[j]? = some cw' → (hamDecode p cw').status ≠ .uncorrectable := by
  simp only [firstUncorrectable, List.findIdx?_eq_some_iff_getElem, frag_hamDecode_isNone_iff]
  constructor
  · rintro ⟨hk, hbad, hbefore⟩
    refine ⟨cws[k], List.getElem?_eq_getElem hk, hbad, fun j cw' hj hcw' => ?_⟩
    obtain ⟨-, rfl⟩ := List.getElem?_eq_some_iff.1 hcw'
    exact hbefore j hj
  · rintro ⟨cw, hcw, hbad, hbefore⟩
    obtain ⟨hk, rfl⟩ := List.getElem?_eq_some_iff.1 hcw
    exact ⟨hk, hbad, fun j hj => hbefore j _ hj (List.getElem?_eq_getElem (hj.trans hk))⟩

/-- No codeword is uncorrectable exactly if all of them give fragments. -/
theorem firstUncorrectable_eq_none_iff {p : Params} {cws : List Codeword} :
    firstUncorrectable p cws = none ↔ ∀ cw ∈ cws, (hamDecode p cw).frag.isSome = true := by
  simp only [firstUncorrectable, List.findIdx?_eq_none_iff, Option.isNone_eq_false_iff]

/-- The loop stops at the first uncorrectable codeword, and otherwise steps the de-interleaver by every fragment. -/
theorem decodeCodewords_eq (p : Params) (k : Nat) (d : Deint) (cws : List Codeword) :
    decodeCodewords p k d cws =
      (firstUncorrectable p cws).elim
        (.ok ((cws.filterMap fun cw => (hamDecode p cw).frag).foldl (fun d frag => d.step p frag) d))
        (fun i => .error (k + i)) := by
  induction cws generalizing k d with
  | nil => rfl
  | cons cw cws ih =>
    cases hfrag : (hamDecode p cw).frag with
    | none => simp [decodeCodewords, firstUncorrectable, List.findIdx?_cons, hfrag]
    | some frag =>
      have hfirst : firstUncorrectable p (cw :: cws) = (firstUncorrectable p cws).map (· + 1) := by
        simp [firstUncorrectable, List.findIdx?_cons, hfrag]
      simp only [decodeCodewords, hfrag, hfirst, ih, List.filterMap_cons, List.foldl_cons]
      cases firstUncorrectable p cws with
      | none => rfl
      | some i => simp only [Option.map_some, Option.elim_some, Nat.add_assoc, Nat.add_comm 1]

/-- The fragments of a datagram's codewords, the uncorrectable ones left out. -/
def fragsOf (p : Params) (D : Bytes) : List Frag :=
  (codewordsOf p.wireBitMap (D.drop 4)).filterMap fun cw => (hamDecode p cw).frag

theorem fragsOf_eq_of_map_eq {p : Params} {D : Bytes} {fs : List Frag}
    (h : (codewordsOf p.wireBitMap (D.drop 4)).map (fun cw => (hamDecode p cw).frag) = fs.map some) : fragsOf p D = fs := by
  have hmap := congrArg (List.filterMap id) h
  simpa [List.filterMap_map, fragsOf] using hmap

theorem length_fragsOf_of_firstUncorrectable_eq_none {p : Params} {D : Bytes}
    (h : firstUncorrectable p (codewordsOf p.wireBitMap (D.drop 4)) = none) : (fragsOf p D).length = (D.length - 4) / 4 := by
  rw [fragsOf, List.filterMap_length_eq_length.2 (firstUncorrectable_eq_none_iff.1 h), length_codewordsOf, List.length_drop]

theorem packetDecode_eq (p : Params) (d : Deint) (D : Bytes) :
    (packetDecode p d D).1 =
      (firstUncorrectable p (codewordsOf p.wireBitMap (D.drop 4))).elim
        (.payload (D.take 4) (deinterleave p (fragsOf p D)) (trim p (deinterleave p (fragsOf p D)))) .fail := by
  rw [packetDecode, decodeCodewords_eq]
  cases firstUncorrectable p (codewordsOf p.wireBitMap (D.drop 4)) with
  | none => rfl
  | some k => simp

theorem packetDecode_eq_fail_iff {p : Params} {d : Deint} {D : Bytes} {k : Nat} :
    (packetDecode p d D).1 = .fail k ↔ firstUncorrectable p (codewordsOf p.wireBitMap (D.drop 4)) = some k := by
  rw [packetDecode_eq]
  cases firstUncorrectable p (codewordsOf p.wireBitMap (D.drop 4)) <;> simp

theorem packetDecode_eq_payload_iff {p : Params} {d : Deint} {D header out : Bytes} {len : Nat} :
    (packetDecode p d D).1 = .payload header out len ↔
      firstUncorrectable p (codewordsOf p.wireBitMap (D.drop 4)) = none ∧
        header = D.take 4 ∧ out = deinterleave p (fragsOf p D) ∧ len = trim p out := by
  rw [packetDecode_eq]
  cases firstUncorrectable p (codewordsOf p.wireBitMap (D.drop 4)) with
  | none =>
    simp only [Option.elim_none, PacketResult.payload.injEq, true_and]
    constructor <;> rintro ⟨rfl, rfl, rfl⟩ <;> exact ⟨rfl, rfl, rfl⟩
  | some k => simp

/-- Settles O54: the failure is the index found, and without one the fragments are those of all codewords. -/
theorem packetDecodeStopsAtTheFirstUncorrectable : Obligations.PacketDecodeStopsAtTheFirstUncorrectable := by
  refine fun p d D => ⟨fun k => packetDecode_eq_fail_iff.trans firstUncorrectable_eq_some_iff, fun fs hfs => ?_⟩
  have hall : firstUncorrectable p (codewordsOf p.wireBitMap (D.drop 4)) = none := by
    refine firstUncorrectable_eq_none_iff.2 fun cw hcw => ?_
    have hmem : (hamDecode p cw).frag ∈ fs.map some := hfs ▸ List.mem_map_of_mem hcw
    obtain ⟨frag, -, hfrag⟩ := List.mem_map.1 hmem
    rw [← hfrag, Option.isSome_some]
  rw [← fragsOf_eq_of_map_eq hfs]
  exact packetDecode_eq_payload_iff.2 ⟨hall, rfl, rfl, rfl⟩

/-! ## TZ (R161) -/

@[simp] theorem trailingZeros_nil : trailingZeros [] = 0 := rfl

@[simp] theorem trailingZeros_concat_zero (out : Bytes) : trailingZeros (out ++ [0]) = trailingZeros out + 1 := by
  simp [trailingZeros]

theorem trailingZeros_concat_of_ne {b : Byte} (out : Bytes) (hb : b ≠ 0) : trailingZeros (out ++ [b]) = 0 := by
  simpa [trailingZeros] using hb

theorem replicate_succ_suffix_concat_iff {z : Nat} {out : Bytes} {b : Byte} :
    List.replicate (z + 1) 0x00 <:+ out ++ [b] ↔ b = 0 ∧ List.replicate z 0x00 <:+ out := by
  rw [List.replicate_succ', List.suffix_concat_iff, or_iff_right (List.concat_ne_nil _ _)]
  constructor
  · rintro ⟨run, hrun, hsuffix⟩
    obtain ⟨rfl, hb⟩ := List.append_inj' hrun rfl
    exact ⟨(List.singleton_inj.1 hb).symm, hsuffix⟩
  · rintro ⟨rfl, hsuffix⟩
    exact ⟨_, rfl, hsuffix⟩

/-- A run of `z` zero bytes ends the string exactly if `z` is at most TZ. -/
theorem replicate_suffix_iff_le_trailingZeros {z : Nat} {out : Bytes} :
    List.replicate z 0x00 <:+ out ↔ z ≤ trailingZeros out := by
  induction out using List.reverseRecOn generalizing z with
  | nil => simp
  | append_singleton out b ih =>
    cases z with
    | zero => simp
    | succ z =>
      rw [replicate_succ_suffix_concat_iff, ih]
      obtain rfl | hb := eq_or_ne b 0
      · rw [trailingZeros_concat_zero, Nat.succ_le_succ_iff, and_iff_right rfl]
      · rw [trailingZeros_concat_of_ne out hb]; exact iff_of_false (fun h => hb h.1) (Nat.not_succ_le_zero z)

theorem replicate_suffix_iff_getElem? {z : Nat} {out : Bytes} :
    List.replicate z 0x00 <:+ out ↔
      z ≤ out.length ∧ ∀ i, out.length - z ≤ i → i < out.length → out[i]? = some 0x00 := by
  simp only [List.suffix_iff_getElem?, List.length_replicate, List.getElem_replicate]
  refine and_congr_right fun hz => ⟨fun h i hle hlt => ?_, fun h i hi => h _ (by omega) (by omega)⟩
  have hi := h (i - (out.length - z)) (by omega)
  rwa [show i - (out.length - z) + out.length - z = i by omega] at hi

/-- Settles O57: TZ is a run that ends the string, and no such run is longer. -/
theorem trailingZerosIsTheLargestRun : Obligations.TrailingZerosIsTheLargestRun := fun _ =>
  ⟨replicate_suffix_iff_getElem?.1 (replicate_suffix_iff_le_trailingZeros.2 le_rfl), fun _ hz hrun =>
    replicate_suffix_iff_le_trailingZeros.1 (replicate_suffix_iff_getElem?.2 ⟨hz, hrun⟩)⟩

/-! ## Terminal payloads (R163) -/

theorem trailingZeros_le_length (out : Bytes) : trailingZeros out ≤ out.length :=
  (trailingZerosIsTheLargestRun out).1.1

theorem trailingZeros_eq_length_iff {out : Bytes} :
    trailingZeros out = out.length ↔ out = List.replicate out.length 0x00 := by
  rw [← (trailingZeros_le_length out).ge_iff_eq, ← replicate_suffix_iff_le_trailingZeros]
  exact ⟨fun h => (h.eq_of_length List.length_replicate).symm, fun h => h ▸ List.suffix_rfl⟩

theorem trim_le_length (p : Params) (out : Bytes) : trim p out ≤ out.length := by
  rw [trim]; split <;> omega

/-- A string of threshold length that is all zero bytes is trimmed to nothing (R162). -/
theorem trim_replicate_trimThreshold (p : Params) : trim p (List.replicate p.trimThreshold 0x00) = 0 := by
  have hzeros : trailingZeros (List.replicate p.trimThreshold 0x00) = p.trimThreshold := by
    simpa using trailingZeros_eq_length_iff (out := List.replicate p.trimThreshold 0x00)
  rw [trim, if_pos hzeros, hzeros, List.length_replicate, Nat.sub_self]

/-- Any other string of threshold length is kept whole (R162). -/
theorem trim_of_ne_replicate {p : Params} {out : Bytes} (hlen : out.length = p.trimThreshold)
    (hne : out ≠ List.replicate p.trimThreshold 0x00) : trim p out = p.trimThreshold := by
  rw [← hlen, Ne, ← trailingZeros_eq_length_iff, hlen] at hne
  rw [trim, if_neg hne, hlen]

theorem dlen_strictMono (packing : Packing) : StrictMono (dlen packing) :=
  strictMono_nat_of_lt_succ fun n => by cases packing <;> simp only [dlen] <;> omega

/-- Settles O58: fewer codewords give less than a full block, which the trim cannot lengthen; a full block is as long as the
threshold, so it is trimmed to nothing or kept whole. -/
theorem terminalExactlyWhenShortOrAllZero : Obligations.TerminalExactlyWhenShortOrAllZero := by
  intro p d D header out len hnCw hthreshold _ hmax hdecode
  obtain ⟨hall, -, hout, rfl⟩ := packetDecode_eq_payload_iff.1 hdecode
  have hlen : out.length = dlen p.packing ((D.length - 4) / 4) := by
    rw [hout, length_deinterleave, length_fragsOf_of_firstUncorrectable_eq_none hall]
  have hcount : (D.length - 4) / 4 ≤ p.nCw := by rw [Params.maxDgram] at hmax; omega
  have hpos : 0 < p.fullDataBytes := (dlen_strictMono p.packing hnCw).pos
  rw [← hthreshold] at hpos ⊢
  refine ⟨?_, fun hzero => hzero ▸ trim_replicate_trimThreshold p⟩
  obtain hshort | hfull := hcount.lt_or_eq
  · have hlt : out.length < p.trimThreshold := by
      rw [hlen, hthreshold]; exact dlen_strictMono p.packing hshort
    exact iff_of_true ((trim_le_length p out).trans_lt hlt) (.inl hshort)
  · have hlenFull : out.length = p.trimThreshold := by rw [hlen, hfull, hthreshold, Params.fullDataBytes]
    by_cases hzero : out = List.replicate p.trimThreshold 0x00
    · exact iff_of_true (by rwa [hzero, trim_replicate_trimThreshold]) (.inr ⟨hfull, hzero⟩)
    · rw [trim_of_ne_replicate hlenFull hzero]
      exact iff_of_false (lt_irrefl _) (not_or.2 ⟨hfull.not_lt, fun h => hzero h.2⟩)

end Sys2Proof.Machine
end

section
/-! The dispatch on STATE (43_session.md R170, R171) and the events START, TIMEOUT and FAULT (R175, R176, R195-R197). -/

namespace Sys2Proof.Machine

/-! ## Events that are ignored -/

section
variable {s : State}

theorem State.whenAwaiting_ignored (f : State → State) (hs : s.state = .idle ∨ s.state = .done ∨ s.state = .error) :
    s.whenAwaiting f = .next s := by
  obtain hs | hs | hs := hs <;> rw [State.whenAwaiting, hs]

theorem State.whenIdle_ignored (f : State → State) (hs : s.state = .awaitingBlock ∨ s.state = .done ∨ s.state = .error) :
    s.whenIdle f = .next s := by
  obtain hs | hs | hs := hs <;> rw [State.whenIdle, hs]

theorem exec_timeout (s : State) : exec .timeout s = s.whenAwaiting fun s => s.timeoutStep := rfl

theorem exec_fault (s : State) :
    exec .fault s = s.whenAwaiting fun s => (s.report (.log .transportFault)).timeoutStep := rfl

/-- Datagrams, TIMEOUT and FAULT are dispatched alike (the table of R170). -/
theorem exists_exec_eq_whenAwaiting {i : Instr} (hi : wireEvent i = true) :
    ∃ f : State → State, ∀ s, exec i s = s.whenAwaiting f := by
  cases i with
  | error b0 x y rest => exact ⟨_, fun s => exec_error s b0 x y rest⟩
  | data b0 block rest => exact ⟨_, exec_data b0 block rest⟩
  | rxOther b0 op block rest => exact ⟨_, fun s => exec_rxOther s b0 op block rest⟩
  | runt D => exact ⟨_, fun s => exec_runt s D⟩
  | rx D => exact ⟨_, fun s => exec_rx s D⟩
  | timeout => exact ⟨_, exec_timeout⟩
  | fault => exact ⟨_, exec_fault⟩
  | rrq | rrqErr | ack | nack | hamCodeword | reset | start => cases hi

theorem exists_exec_start_eq_whenIdle {op : Byte} {name : Bytes} (addr : PeerAddr) (h : ValidStart op name) :
    ∃ f : State → State, ∀ s, exec (.start op name addr) s = s.whenIdle f :=
  ⟨_, fun _ => if_pos h⟩

end

/-- Settles O10: every such event goes through the dispatch on STATE, which ignores it. -/
theorem ignoredEventsChangeNothing : Obligations.IgnoredEventsChangeNothing := by
  refine ⟨fun i s hi hs => ?_, fun op name addr s hvalid hs => ?_⟩
  · obtain ⟨f, hf⟩ := exists_exec_eq_whenAwaiting hi
    rw [hf, State.whenAwaiting_ignored f hs]
  · obtain ⟨f, hf⟩ := exists_exec_start_eq_whenIdle addr hvalid
    rw [hf, State.whenIdle_ignored f hs]

/-! ## START with an address -/

theorem exec_start_bound {op : Byte} {name : Bytes} {s : State} (hvalid : ValidStart op name) (hs : s.state = .idle) :
    exec (.start op name .bound) s = .next (s.beginTransfer.sendRequest op name) :=
  (if_pos hvalid).trans (s.whenIdle_idle hs)

/-- Settles O13: what START writes before the test of the address, then the request. -/
theorem startSendsTheRequest : Obligations.StartSendsTheRequest := by
  intro op name s hs hop hname
  rw [exec_start_bound ⟨hop, hname⟩ hs, State.sendRequest_eq]
  rfl

/-! ## TIMEOUT and FAULT -/

section
variable {s : State}

theorem ResendBound.reached_eq_false {b : ResendBound} {r : Nat}
    (h : b = .unbounded ∨ ∃ n, b = .atMost n ∧ r < n) : b.reached r = false := by
  obtain rfl | ⟨n, rfl, hlt⟩ := h
  · rfl
  · exact decide_eq_false hlt.not_ge

theorem ResendBound.reached_atMost {n r : Nat} (h : n ≤ r) : (ResendBound.atMost n).reached r = true :=
  decide_eq_true h

theorem exec_timeout_awaiting (hs : s.state = .awaitingBlock) : exec .timeout s = .next s.timeoutStep := by
  rw [exec_timeout, s.whenAwaiting_awaiting hs]

theorem exec_fault_awaiting (hs : s.state = .awaitingBlock) :
    exec .fault s = .next (s.report (.log .transportFault)).timeoutStep := by
  rw [exec_fault, s.whenAwaiting_awaiting hs]

end

/-- Settles O15: a resend while the bound is not reached, the fatal condition once it is. -/
theorem timeoutResendsOrGivesUp : Obligations.TimeoutResendsOrGivesUp := by
  refine ⟨fun s hs hleft => ?_, fun s n hs hbound hle => ?_⟩
  · rw [exec_timeout_awaiting hs, State.timeoutStep_of_not_reached s (ResendBound.reached_eq_false hleft)]
  · have hreached : s.cfg.maxResends.reached s.resends = true := hbound ▸ ResendBound.reached_atMost hle
    rw [exec_timeout_awaiting hs, State.timeoutStep_of_reached s hreached, State.retryExhausted_eq]

/-- Settles O16: FAULT is the report, then the TIMEOUT step. -/
theorem faultIsLoggedThenRetried : Obligations.FaultIsLoggedThenRetried := by
  refine ⟨fun s hs => ?_, fun s hs hleft => ?_⟩
  · rw [exec_fault_awaiting hs]
    exact (exec_timeout_awaiting (s := s.report (.log .transportFault)) hs).symm
  · have hnot : (s.report (.log .transportFault)).cfg.maxResends.reached (s.report (.log .transportFault)).resends = false :=
      ResendBound.reached_eq_false hleft
    rw [exec_fault_awaiting hs, State.timeoutStep_of_not_reached _ hnot]
    simp [State.report, State.emit]

end Sys2Proof.Machine
end

section
/-! Receiving a datagram in `AwaitingBlock` (43_session.md sections 3-6): the runt, the error packet, and what the data path does
with each result of PACKET_DECODE. -/

namespace Sys2Proof.Machine

/-! ## Runts and error packets -/

/-- Settles O17: a runt is discarded, and RX of it is RUNT. -/
theorem runtIsDiscarded : Obligations.RuntIsDiscarded := by
  intro D s hs hD
  have hrunt : exec (.runt D) s = .next s := by rw [exec_runt, s.whenAwaiting_awaiting hs]
  exact ⟨hrunt, (exec_rx_of_length_lt_four s hD).trans hrunt⟩

/-- Settles O18: the receive buffer holds the whole datagram, whose bytes from offset 4 on are the message. -/
theorem errorPacketEndsTheTransfer : Obligations.ErrorPacketEndsTheTransfer := by
  intro b0 x y rest s hs hrest
  refine ⟨?_, exec_rx_error s b0 x y rest⟩
  rw [exec_error, s.whenAwaiting_awaiting hs, State.received_header_append, List.take_of_length_le hrest,
    State.errorPacket_eq]
  rfl

/-! ## The data path -/

/-- The three forms a data datagram arrives in run the data path on what the receive buffer holds of it. -/
theorem exec_eq_dataPath_of_dataDatagram {i : Instr} {D : Bytes} (hi : dataDatagram i = some D) (s : State) :
    exec i s = s.whenAwaiting fun s => s.clearResends.dataPath (s.received D) := by
  cases i with
  | data b0 v rest => cases hi; exact exec_data b0 v rest s
  | rxOther b0 op v rest => cases hi; exact exec_rxOther s b0 op v rest
  | rx E =>
    obtain ⟨hE, ⟨⟩⟩ := Option.ite_none_left_eq_some.1 hi
    obtain ⟨hlong, hopcode⟩ := not_or.1 hE
    obtain ⟨b0, b1, b2, b3, rest, rfl⟩ := exists_header_append (Nat.le_of_not_lt hlong)
    have hb1 : b1 ≠ 0x05 := hopcode
    simp only [exec_rx, State.rxStep_header_append, if_neg hb1]
  | rrq | rrqErr | ack | nack | error | runt | hamCodeword | reset | start | timeout | fault => cases hi

/-- The registers written before the result of PACKET_DECODE is looked at (43_session.md R178, R181, R184). -/
def State.captureAndDecode (s : State) (D : Bytes) : State :=
  { s with resends := 0, nackCache := captured s D, nackValid := true, deint := Deint.clear }

theorem headerBlock_take_four (D : Bytes) : headerBlock (D.take 4) = headerBlock D := by
  simp [headerBlock]

section
variable {i : Instr} {D header out : Bytes} {k len : Nat} {s : State}

theorem exec_eq_handleResult (hi : dataDatagram i = some D) (hs : s.state = .awaitingBlock)
    (hD : D.length ≤ s.cfg.maxDgram) :
    exec i s = .next ((s.captureAndDecode D).handleResult (packetDecode s.cfg Deint.clear D).1) := by
  have hreceived : s.received D = D := List.take_of_length_le hD
  rw [exec_eq_dataPath_of_dataDatagram hi, s.whenAwaiting_awaiting hs, hreceived, State.dataPath_eq, packetDecode_deint]
  rfl

theorem headerBlock_of_packetDecode (h : (packetDecode s.cfg Deint.clear D).1 = .payload header out len) :
    headerBlock header = headerBlock D := by
  obtain ⟨-, rfl, -, -⟩ := packetDecode_eq_payload_iff.1 h
  exact headerBlock_take_four D

/-- The trimmed length of a payload is at most its length. -/
theorem len_le_of_packetDecode (h : (packetDecode s.cfg Deint.clear D).1 = .payload header out len) : len ≤ out.length := by
  obtain ⟨-, -, -, rfl⟩ := packetDecode_eq_payload_iff.1 h
  exact trim_le_length s.cfg out

theorem exec_of_fail (hi : dataDatagram i = some D) (hs : s.state = .awaitingBlock) (hD : D.length ≤ s.cfg.maxDgram)
    (hfail : (packetDecode s.cfg Deint.clear D).1 = .fail k) : exec i s = .next (s.captureAndDecode D).sendNack := by
  rw [exec_eq_handleResult hi hs hD, hfail, State.handleResult]

theorem exec_of_mismatch (hi : dataDatagram i = some D) (hs : s.state = .awaitingBlock) (hD : D.length ≤ s.cfg.maxDgram)
    (hpay : (packetDecode s.cfg Deint.clear D).1 = .payload header out len) (hne : headerBlock D ≠ s.expected) :
    exec i s = .next (s.captureAndDecode D).dupAck := by
  rw [exec_eq_handleResult hi hs hD, hpay, State.handleResult, headerBlock_of_packetDecode hpay]
  exact congrArg _ (if_pos hne)

theorem exec_of_match_full (hi : dataDatagram i = some D) (hs : s.state = .awaitingBlock)
    (hD : D.length ≤ s.cfg.maxDgram)
    (hpay : (packetDecode s.cfg Deint.clear D).1 = .payload header out s.cfg.fullDataBytes)
    (heq : headerBlock D = s.expected) :
    exec i s = .next ((s.captureAndDecode D).acceptFull out s.cfg.fullDataBytes) := by
  rw [exec_eq_handleResult hi hs hD, hpay, State.handleResult, headerBlock_of_packetDecode hpay]
  exact congrArg _ ((if_neg (not_not_intro heq)).trans (if_pos rfl))

theorem exec_of_match_terminal (hi : dataDatagram i = some D) (hs : s.state = .awaitingBlock)
    (hD : D.length ≤ s.cfg.maxDgram) (hpay : (packetDecode s.cfg Deint.clear D).1 = .payload header out len)
    (heq : headerBlock D = s.expected) (hlen : len ≠ s.cfg.fullDataBytes) :
    exec i s = .next ((s.captureAndDecode D).acceptTerminal out len) := by
  rw [exec_eq_handleResult hi hs hD, hpay, State.handleResult, headerBlock_of_packetDecode hpay]
  exact congrArg _ ((if_neg (not_not_intro heq)).trans (if_neg hlen))

end

/-- Settles O19: the NACK carries the cache as it is after the capture. -/
theorem uncorrectableDatagramIsNacked : Obligations.UncorrectableDatagramIsNacked := by
  intro i D k s hi hs hD hfail
  rw [exec_of_fail hi hs hD hfail, State.sendNack_eq, ← hs]
  rfl

/-- Settles O20: a payload of another block number goes to DUP_ACK. -/
theorem mismatchGetsTheDuplicateAck : Obligations.MismatchGetsTheDuplicateAck := by
  intro i D header out len s hi hs hD hpay hne
  rw [exec_of_mismatch hi hs hD hpay hne, State.dupAck_eq, ← hs]
  rfl

/-- Settles O21: a matching payload of full trimmed length goes to ACCEPT_FULL. -/
theorem matchingFullBlockIsAccepted : Obligations.MatchingFullBlockIsAccepted := by
  intro i D header out s hi hs hD hpay heq
  rw [exec_of_match_full hi hs hD hpay heq, State.acceptFull_eq, ← hs]
  rfl

/-- Settles O22: a matching payload of less than full trimmed length goes to ACCEPT_TERMINAL, which writes bytes of OUT alone, as
the trimmed length is at most OUT's. -/
theorem matchingShortBlockEndsTheTransfer : Obligations.MatchingShortBlockEndsTheTransfer := by
  intro i D header out len s hi hs hD hpay heq hlt
  have hwrite : (overwrite s.pendData out).take len = out.take len :=
    List.take_append_of_le_length (len_le_of_packetDecode hpay)
  rw [exec_of_match_terminal hi hs hD hpay heq hlt.ne, State.acceptTerminal_eq, ← hwrite]
  rfl

/-! ## The file -/

theorem sinkBytes_append (os os' : List Output) : sinkBytes (os ++ os') = sinkBytes os ++ sinkBytes os' := by
  induction os with
  | nil => rfl
  | cons o os ih => cases o <;> simp [sinkBytes, ih]

/-- The file as it will be: what is written, and the write of the block held. -/
theorem acceptedBytes_eq (s : State) : acceptedBytes s = sinkBytes (s.outbox ++ heldWrite s) := by
  rw [acceptedBytes, sinkBytes_append, heldWrite]
  cases s.pendValid <;> simp [sinkBytes]

section
variable (s : State)

theorem acceptedBytes_captureAndDecode (D : Bytes) : acceptedBytes (s.captureAndDecode D) = acceptedBytes s := rfl

theorem acceptedBytes_sendNack : acceptedBytes s.sendNack = acceptedBytes s := by
  simp [acceptedBytes, State.sendNack_eq, sinkBytes_append, sinkBytes]

theorem acceptedBytes_dupAck : acceptedBytes s.dupAck = acceptedBytes s := by
  simp [acceptedBytes, State.dupAck_eq, sinkBytes_append, sinkBytes]

/-- ACCEPT_FULL writes the block held before and holds the new one. -/
theorem acceptedBytes_acceptFull (out : Bytes) :
    acceptedBytes (s.acceptFull out s.cfg.fullDataBytes) = acceptedBytes s ++ out.take s.cfg.fullDataBytes := by
  rw [acceptedBytes_eq s]
  simp [acceptedBytes, State.acceptFull_eq, sinkBytes_append, sinkBytes]

/-- ACCEPT_TERMINAL writes the block held before and the new one. -/
theorem acceptedBytes_acceptTerminal {out : Bytes} {len : Nat} (hlen : len ≤ out.length) :
    acceptedBytes (s.acceptTerminal out len) = acceptedBytes s ++ out.take len := by
  rw [acceptedBytes_eq s]
  simp [acceptedBytes, State.acceptTerminal_eq, sinkBytes_append, sinkBytes, overwrite, List.take_append_of_le_length hlen]

end

/-- Settles O28: what each of the four results of a data datagram adds to the file. -/
theorem theFileGrowsByEachAcceptedBlock : Obligations.TheFileGrowsByEachAcceptedBlock := by
  intro i D s t hi hs hD hexec
  refine ⟨fun k hfail => ?_, fun header out len hpay => ?_⟩
  · obtain rfl := Host.Outcome.next.inj ((exec_of_fail hi hs hD hfail).symm.trans hexec)
    exact acceptedBytes_sendNack _
  split
  case isFalse hne =>
    obtain rfl := Host.Outcome.next.inj ((exec_of_mismatch hi hs hD hpay hne).symm.trans hexec)
    exact acceptedBytes_dupAck _
  case isTrue heq =>
    by_cases hfull : len = s.cfg.fullDataBytes
    · subst hfull
      obtain rfl := Host.Outcome.next.inj ((exec_of_match_full hi hs hD hpay heq).symm.trans hexec)
      exact acceptedBytes_acceptFull (s.captureAndDecode D) out
    · obtain rfl := Host.Outcome.next.inj ((exec_of_match_terminal hi hs hD hpay heq hfull).symm.trans hexec)
      exact acceptedBytes_acceptTerminal (s.captureAndDecode D) (len_le_of_packetDecode hpay)

/-- A payload with the block number expected is ACKed and EXPECTED advances, whether it is full or terminal. -/
theorem expected_and_lastTx_of_match {i : Instr} {D header out : Bytes} {len : Nat} {s t : State}
    (hi : dataDatagram i = some D) (hs : s.state = .awaitingBlock) (hD : D.length ≤ s.cfg.maxDgram)
    (hpay : (packetDecode s.cfg Deint.clear D).1 = .payload header out len) (heq : headerBlock D = s.expected)
    (hexec : exec i s = .next t) : t.expected = s.expected + 1 ∧ t.lastTx = ackBytes s.expected := by
  by_cases hfull : len = s.cfg.fullDataBytes
  · subst hfull
    obtain rfl := Host.Outcome.next.inj ((exec_of_match_full hi hs hD hpay heq).symm.trans hexec)
    rw [State.acceptFull_eq]; exact ⟨rfl, rfl⟩
  · obtain rfl := Host.Outcome.next.inj ((exec_of_match_terminal hi hs hD hpay heq hfull).symm.trans hexec)
    rw [State.acceptTerminal_eq]; exact ⟨rfl, rfl⟩

/-- Settles O30: after block 0xFFFF the machine expects block 0x0000, which then matches. -/
theorem blockZeroFollowsBlockFFFF : Obligations.BlockZeroFollowsBlockFFFF := by
  intro i j D E header header' out out' len s t u hs hexpected hi hD hpay hblock hexec hj hE hpay' hblock' hexec'
  have ht := Host.Outcome.next.inj ((exec_of_match_full hi hs hD hpay (hblock.trans hexpected.symm)).symm.trans hexec)
  rw [State.acceptFull_eq] at ht
  have hstate : t.state = .awaitingBlock := ht ▸ rfl
  have hcfg : t.cfg = s.cfg := ht ▸ rfl
  have hzero : t.expected = 0x0000 := (show t.expected = s.expected + 1 from ht ▸ rfl).trans (hexpected ▸ rfl)
  rw [← hcfg] at hE hpay'
  obtain ⟨hu, hlast⟩ := expected_and_lastTx_of_match hj hstate hE hpay' (hblock'.trans hzero.symm) hexec'
  rw [hzero] at hu hlast
  exact ⟨hzero, hu, hlast⟩

end Sys2Proof.Machine
end

section
/-! The matching encoder's blocks (95_test_vectors.md section 2): the fragments of a byte string, and that PACKET_DECODE of its
datagram gives the bytes back, padded with zero bytes to the end of the last codeword or group. -/

namespace Sys2Proof.Machine

/-! ## The codewords of an encoded datagram -/

theorem assemble_wireBytes_le (cw : Codeword) :
    assemble .le (cw.extractLsb' 0 8) (cw.extractLsb' 8 8) (cw.extractLsb' 16 8) (cw.extractLsb' 24 8) = cw := by
  refine BitVec.eq_of_getLsbD_eq fun q hq => ?_
  have hbyte : ∀ k, k < 4 →
      [cw.extractLsb' 0 8, cw.extractLsb' 8 8, cw.extractLsb' 16 8, cw.extractLsb' 24 8].getD k 0 = cw.extractLsb' (8 * k) 8
    | 0, _ | 1, _ | 2, _ | 3, _ => rfl
  rw [getLsbD_assemble_le _ _ _ _ q hq, hbyte _ (by omega), BitVec.getLsbD_extractLsb', decide_eq_true (by omega),
    Bool.true_and, Nat.div_add_mod]

theorem codewordsOf_wireBytes_append (cw : Codeword) (l : Bytes) :
    codewordsOf .le (wireBytes .le cw ++ l) = cw :: codewordsOf .le l :=
  congrArg (· :: codewordsOf .le l) (assemble_wireBytes_le cw)

theorem codewordsOf_flatMap_wireBytes (fs : List Frag) :
    codewordsOf .le (fs.flatMap fun f => wireBytes .le (encodeFrag f)) = fs.map encodeFrag := by
  induction fs with
  | nil => rfl
  | cons f fs ih => rw [List.flatMap_cons, codewordsOf_wireBytes_append, ih, List.map_cons]

theorem length_fragsDatagram (blk : BlockNo) (fs : List Frag) : (fragsDatagram blk fs).length = 4 + 4 * fs.length := by
  have hwords : ∀ f, (wireBytes .le (encodeFrag f)).length = 4 := fun _ => rfl
  simp [fragsDatagram, List.length_flatMap, hwords, Nat.mul_comm, Nat.add_comm 4]

/-- Every codeword decodes clean (R116), so the payload is what the de-interleaver makes of the fragments. -/
theorem packetDecode_fragsDatagram {p : Params} (hmap : p.wireBitMap = .le) (d : Deint) (blk : BlockNo) (fs : List Frag) :
    (packetDecode p d (fragsDatagram blk fs)).1 =
      .payload [0x00, 0x03, blockHi blk, blockLo blk] (deinterleave p fs) (trim p (deinterleave p fs)) := by
  refine (packetDecodeStopsAtTheFirstUncorrectable p d (fragsDatagram blk fs)).2 fs ?_
  have hdrop : (fragsDatagram blk fs).drop 4 = fs.flatMap fun f => wireBytes .le (encodeFrag f) := rfl
  rw [hmap, hdrop, codewordsOf_flatMap_wireBytes, List.map_map]
  exact List.map_congr_left fun f _ => congrArg CodecResult.frag (decodingAnEncodedFragmentIsClean p f)

/-! ## The fragments of a byte string -/

/-- The number of fragments for `m` bytes: four a whole group, and those of the last one. -/
def fragCount (m : Nat) : Nat :=
  4 * (m / 13) + groupFragCount (m % 13)

/-- Fragment `i` of a byte string, which reads as 0x00 behind its end: fragment `i % 4` of group `i / 4`. -/
def byteFrag (bytes : Bytes) (i : Nat) : Frag :=
  groupFrag (bytes.drop (13 * (i / 4))) (i % 4)

theorem groupFragCount_le_four (r : Nat) : groupFragCount r ≤ 4 := by
  unfold groupFragCount; split <;> omega

theorem fragCount_of_lt {m : Nat} (h : m < 13) : fragCount m = groupFragCount m := by
  rw [fragCount, Nat.div_eq_of_lt h, Nat.mod_eq_of_lt h, Nat.mul_zero, Nat.zero_add]

theorem fragCount_add_group (m : Nat) : fragCount (13 + m) = 4 + fragCount m := by
  rw [fragCount, fragCount, Nat.add_mod_left, Nat.add_div_left m (by omega)]; omega

/-- A fragment reads 13 bytes of its group. -/
theorem groupFrag_congr {G G' : Bytes} (h : ∀ t, t < 13 → G.getD t 0 = G'.getD t 0) {j : Nat} (hj : j < 4) :
    groupFrag G j = groupFrag G' j := by
  simp only [groupFrag, h 12 (by omega), h (3 * j) (by omega), h (3 * j + 1) (by omega), h (3 * j + 2) (by omega)]

theorem getD_take_append_replicate (bytes : Bytes) (r : Nat) {m t : Nat} (ht : t < m) :
    (bytes.take m ++ List.replicate r 0x00).getD t 0 = bytes.getD t 0 := by
  simp only [List.getD_eq_getElem?_getD, List.getElem?_append, List.getElem?_take, if_pos ht, List.getElem?_replicate,
    List.length_take]
  split
  · rfl
  · rw [List.getElem?_eq_none (l := bytes) (by omega)]; split <;> rfl

theorem groupFrags_take (bytes : Bytes) :
    groupFrags (bytes.take 13) = (List.range (groupFragCount (min 13 bytes.length))).map (byteFrag bytes) := by
  rw [groupFrags, List.length_take]
  refine List.map_congr_left fun j hj => ?_
  have hlt : j < 4 := (List.mem_range.1 hj).trans_le (groupFragCount_le_four _)
  rw [byteFrag, Nat.div_eq_of_lt hlt, Nat.mod_eq_of_lt hlt]
  exact groupFrag_congr (fun t ht => getD_take_append_replicate bytes _ ht) hlt

theorem byteFrag_drop_group (bytes : Bytes) (i : Nat) : byteFrag (bytes.drop 13) i = byteFrag bytes (4 + i) := by
  rw [byteFrag, byteFrag, List.drop_drop, Nat.add_mod_left, Nat.add_div_left i (by omega), Nat.mul_succ, Nat.add_comm]

/-- The groups end to end. Groups behind the last byte have no fragments, so any number that covers the bytes will do. -/
theorem blockFrags_eq {bytes : Bytes} {k : Nat} (h : bytes.length ≤ 13 * k) :
    blockFrags bytes k = (List.range (fragCount bytes.length)).map (byteFrag bytes) := by
  induction k generalizing bytes with
  | zero => rw [List.eq_nil_of_length_eq_zero (Nat.le_zero.1 h)]; rfl
  | succ k ih =>
    rw [blockFrags, groupFrags_take, ih (by rw [List.length_drop]; omega)]
    obtain hlt | hge := Nat.lt_or_ge bytes.length 13
    · rw [List.drop_eq_nil_of_le hlt.le, fragCount_of_lt hlt, Nat.min_eq_right hlt.le]
      exact List.append_nil _
    · obtain ⟨m, hm⟩ := Nat.exists_eq_add_of_le hge
      have hrest : (bytes.drop 13).length = m := by rw [List.length_drop]; omega
      have hgroup : groupFragCount (min 13 bytes.length) = 4 := by rw [Nat.min_eq_left hge]; rfl
      rw [hgroup, hrest, hm, fragCount_add_group, List.range_add, List.map_append, List.map_map]
      exact congrArg _ (List.map_congr_left fun i _ => byteFrag_drop_group bytes i)

theorem length_blockFrags {bytes : Bytes} {k : Nat} (h : bytes.length ≤ 13 * k) :
    (blockFrags bytes k).length = fragCount bytes.length := by
  rw [blockFrags_eq h, List.length_map, List.length_range]

/-! ## The bytes of the fragments -/

theorem getLsbD_shiftLeft_frag (b : Byte) (k : Nat) {u : Nat} (hu : u < 26) :
    ((b.setWidth 26 : Frag) <<< k).getLsbD u = (decide (k ≤ u) && b.getLsbD (u - k)) := by
  have hwidth : u - k < 26 := by omega
  rw [BitVec.getLsbD_shiftLeft, BitVec.getLsbD_setWidth, decide_eq_true hu, decide_eq_true hwidth, Bool.true_and,
    Bool.true_and, ← decide_not, decide_eq_decide.2 Nat.not_lt]

theorem getLsbD_ite_twoPow (x : Bool) (k : Nat) {u : Nat} (hu : u < 26) :
    (if x then 1#26 <<< k else 0#26 : Frag).getLsbD u = (x && decide (k = u)) := by
  cases x with
  | false => simp
  | true =>
    refine (BitVec.getLsbD_twoPow k u).trans ?_
    obtain rfl | h := eq_or_ne k u
    · simp [hu]
    · simp [h]

/-- The bits of fragment `j`: three bytes of its group, and two bits of the group's last byte. -/
theorem getLsbD_groupFrag (G : Bytes) (j : Nat) {u : Nat} (hu : u < 26) :
    (groupFrag G j).getLsbD u =
      (decide (18 ≤ u) && (G.getD (3 * j) 0).getLsbD (u - 18) || decide (10 ≤ u) && (G.getD (3 * j + 1) 0).getLsbD (u - 10) ||
        decide (2 ≤ u) && (G.getD (3 * j + 2) 0).getLsbD (u - 2) ||
        (G.getD 12 0).getLsbD (2 * j) && decide (1 = u) || (G.getD 12 0).getLsbD (2 * j + 1) && decide (0 = u)) := by
  rw [← getLsbD_ite_twoPow _ 1 hu, ← getLsbD_ite_twoPow _ 0 hu]
  simp only [groupFrag, BitVec.getLsbD_or, getLsbD_shiftLeft_frag _ _ hu]
  rfl

/-- In the field of each byte the other bytes and the two last bits are outside their own positions. -/
theorem regularBytes_groupFrag (G : Bytes) (j : Nat) :
    regularBytes (groupFrag G j) = [G.getD (3 * j) 0, G.getD (3 * j + 1) 0, G.getD (3 * j + 2) 0] := by
  have hfield : ∀ {start : Nat} {b : Byte}, (∀ v, v < 8 → (groupFrag G j).getLsbD (start + v) = b.getLsbD v) →
      (groupFrag G j).extractLsb' start 8 = b := fun h => BitVec.eq_of_getLsbD_eq fun v hv => by
    rw [BitVec.getLsbD_extractLsb', decide_eq_true hv, Bool.true_and, h v hv]
  have h0 : (groupFrag G j).extractLsb' 18 8 = G.getD (3 * j) 0 := hfield fun v hv => by
    rw [getLsbD_groupFrag G j (by omega)]
    simp (disch := omega) [BitVec.getLsbD_of_ge, decide_eq_false]
  have h1 : (groupFrag G j).extractLsb' 10 8 = G.getD (3 * j + 1) 0 := hfield fun v hv => by
    rw [getLsbD_groupFrag G j (by omega)]
    simp (disch := omega) [BitVec.getLsbD_of_ge, decide_eq_false]
  have h2 : (groupFrag G j).extractLsb' 2 8 = G.getD (3 * j + 2) 0 := hfield fun v hv => by
    rw [getLsbD_groupFrag G j (by omega)]
    simp (disch := omega) [decide_eq_false]
  rw [regularBytes, h0, h1, h2]

theorem logicalBit_groupFrag (G : Bytes) (j : Nat) {b : Nat} (hb : b < 2) :
    logicalBit (groupFrag G j) (24 + b) = (G.getD 12 0).getLsbD (2 * j + b) := by
  rw [logicalBit, getLsbD_groupFrag G j (by omega)]
  match b, hb with
  | 0, _ | 1, _ => simp

/-! ## De-interleaving them -/

theorem getD_drop (bytes : Bytes) (m t : Nat) : (bytes.drop m).getD t 0 = bytes.getD (m + t) 0 := by
  rw [List.getD_eq_getElem?_getD, List.getElem?_drop, List.getD_eq_getElem?_getD]

theorem getElem?_map_byteFrag (bytes : Bytes) {n g j : Nat} (hj : j < 4) (hn : 4 * g + j < n) :
    ((List.range n).map (byteFrag bytes))[4 * g + j]? = some (groupFrag (bytes.drop (13 * g)) j) := by
  rw [List.getElem?_map, List.getElem?_range hn, Option.map_some, byteFrag, show (4 * g + j) / 4 = g by omega,
    show (4 * g + j) % 4 = j by omega]

section
variable {p : Params} (hpacking : p.packing = .separateCarry) (horder : p.carryOrder = .firstIsLsb) (bytes : Bytes)
include hpacking

/-- The three bytes of a fragment return to their places. -/
theorem getElem?_deinterleave_byteFrag_regular {n g j r : Nat} (hj : j < 4) (hn : 4 * g + j < n) (hr : r < 3) :
    (deinterleave p ((List.range n).map (byteFrag bytes)))[13 * g + 3 * j + r]? =
      some (bytes.getD (13 * g + 3 * j + r) 0) := by
  rw [getElem?_deinterleave_regular hpacking hj (getElem?_map_byteFrag bytes hj hn) hr, regularBytes_groupFrag, Nat.add_assoc,
    ← getD_drop bytes]
  match r, hr with
  | 0, _ | 1, _ | 2, _ => rfl

include horder

/-- The last byte of a complete group is collected from its four fragments. -/
theorem getElem?_deinterleave_byteFrag_carry {n g : Nat} (hn : 4 * g + 4 ≤ n) :
    (deinterleave p ((List.range n).map (byteFrag bytes)))[13 * g + 12]? = some (bytes.getD (13 * g + 12) 0) := by
  obtain ⟨carry, hbyte, hcarry⟩ :=
    exists_carryByte_deinterleave (fs := (List.range n).map (byteFrag bytes)) hpacking (g := g) (by simpa using hn)
  rw [hbyte, horder, ← getD_drop]
  refine congrArg some (BitVec.eq_of_getLsbD_eq fun k hk => ?_)
  have hfrag := getElem?_map_byteFrag bytes (n := n) (g := g) (j := k / 2) (by omega) (by omega)
  have hpos : 8 * g + k = 2 * (4 * g + k / 2) + k % 2 := by omega
  rw [carryByte, hcarry k hk, hpos, carriedBit_of_getElem? hfrag (by omega), logicalBit_groupFrag _ _ (by omega), Nat.div_add_mod]

theorem getElem?_deinterleave_byteFrag {n i : Nat} (hi : i < dlen .separateCarry n) :
    (deinterleave p ((List.range n).map (byteFrag bytes)))[i]? = some (bytes.getD i 0) := by
  rw [dlen] at hi
  obtain hregular | hcarry := Nat.lt_or_ge (i % 13) 12
  · have hpos : i = 13 * (i / 13) + 3 * (i % 13 / 3) + i % 13 % 3 := by omega
    rw [hpos]
    exact getElem?_deinterleave_byteFrag_regular hpacking bytes (by omega) (by omega) (by omega)
  · have hpos : i = 13 * (i / 13) + 12 := by omega
    rw [hpos]
    exact getElem?_deinterleave_byteFrag_carry hpacking horder bytes (by omega)

end

/-- The padding of the last codeword or group (42_packet_decode.md R164). -/
theorem exists_dlen_fragCount (m : Nat) : ∃ z, z ≤ 3 ∧ dlen .separateCarry (fragCount m) = m + z := by
  refine ⟨dlen .separateCarry (fragCount m) - m, ?_⟩
  rw [dlen, fragCount, groupFragCount]
  split <;> omega

theorem append_replicate_eq_of_getElem? {l bytes : Bytes} {z : Nat} (hlen : l.length = bytes.length + z)
    (h : ∀ i, i < l.length → l[i]? = some (bytes.getD i 0)) : l = bytes ++ List.replicate z 0x00 := by
  have hlen' : l.length = (bytes ++ List.replicate z 0x00).length := by rw [hlen, List.length_append, List.length_replicate]
  refine List.ext_getElem hlen' fun i hi _ => ?_
  rw [(List.getElem_eq_iff hi).2 (h i hi), List.getElem_append]
  split
  case isTrue hlt => rw [List.getD_eq_getElem _ _ hlt]
  case isFalse hge => rw [List.getElem_replicate, List.getD_eq_default _ _ (by omega)]

/-- A block is received as its bytes and the padding. -/
theorem packetDecode_encodeBlock {p : Params} (hmap : p.wireBitMap = .le) (hpacking : p.packing = .separateCarry)
    (horder : p.carryOrder = .firstIsLsb) (d : Deint) (blk : BlockNo) (bytes : Bytes) {z : Nat}
    (hz : dlen .separateCarry (fragCount bytes.length) = bytes.length + z) :
    (packetDecode p d (encodeBlock blk bytes)).1 =
      .payload [0x00, 0x03, blockHi blk, blockLo blk] (bytes ++ List.replicate z 0x00)
        (trim p (bytes ++ List.replicate z 0x00)) := by
  have hfrags := blockFrags_eq (bytes := bytes) (k := (bytes.length + 12) / 13) (by omega)
  have hlen : (deinterleave p ((List.range (fragCount bytes.length)).map (byteFrag bytes))).length = bytes.length + z := by
    rw [length_deinterleave, hpacking, List.length_map, List.length_range, hz]
  have hout := append_replicate_eq_of_getElem? hlen fun i hi =>
    getElem?_deinterleave_byteFrag hpacking horder bytes (by omega)
  rw [encodeBlock, packetDecode_fragsDatagram hmap, hfrags, hout]

theorem length_encodeBlock (blk : BlockNo) (bytes : Bytes) :
    (encodeBlock blk bytes).length = 4 + 4 * fragCount bytes.length := by
  rw [encodeBlock, length_fragsDatagram, length_blockFrags (by omega)]

end Sys2Proof.Machine
end

section
/-! A whole transfer (43_session.md R198 item 5, 95_test_vectors.md section 2): the session with the default parameters receives
what ENCODE_FILE makes of a file. -/

namespace Sys2Proof.Machine

/-! ## The script line of START (30_encoding.md R83) -/

theorem stripSuffix_kwQuoteNone_append_kwQuote (name : Bytes) : stripSuffix kwQuoteNone (name ++ kwQuote) = none := by
  simp [stripSuffix, kwQuoteNone, kwQuote, ascii, stripPrefix]

theorem decodeNameAddr_append_encodeAddr (name : Bytes) (addr : PeerAddr) :
    decodeNameAddr (name ++ encodeAddr addr) = some (name, addr) := by
  cases addr with
  | none => rw [decodeNameAddr, encodeAddr, stripSuffix_append]
  | bound => rw [decodeNameAddr, encodeAddr, stripSuffix_kwQuoteNone_append_kwQuote, stripSuffix_append]

theorem decodeStart_append {op : Byte} {name : Bytes} (addr : PeerAddr) (h : ValidStart op name) :
    decodeStart ((op + 0x30) :: (kwName ++ (name ++ encodeAddr addr))) = .ok (.start op name addr) := by
  obtain ⟨hop, hname⟩ := h
  have hdigit : op + 0x30 = 0x31 ∨ op + 0x30 = 0x32 := hop.imp (by rintro rfl; rfl) (by rintro rfl; rfl)
  rw [decodeStart, stripPrefix_append]
  dsimp only
  rw [decodeNameAddr_append_encodeAddr]
  dsimp only
  rw [if_pos ⟨hdigit, hname⟩, BitVec.add_sub_cancel]

/-- A line that begins as START does is none of the other events. -/
theorem decodeEventLine_append_kwStartOp (l : Bytes) : decodeEventLine (kwStartOp ++ l) = decodeStart l := by
  have hne : ∀ kw : Bytes, kw.head? ≠ some 0x53 → kwStartOp ++ l ≠ kw := fun kw hkw h => hkw (h ▸ rfl)
  rw [decodeEventLine, if_neg (hne kwReset (by decide)), if_neg (hne kwTimeout (by decide)), if_neg (hne kwFault (by decide)),
    stripPrefix_append]

theorem decode_encode_start (p : Params) {op : Byte} {name : Bytes} (addr : PeerAddr) (h : ValidStart op name) :
    decode p (encode p (.start op name addr)) = .ok (.start op name addr) := by
  have hline : (encode p (.start op name addr)).bytes = kwStartOp ++ ((op + 0x30) :: (kwName ++ (name ++ encodeAddr addr))) := by
    simp [encode, encodeBytes]
  calc decode p (encode p (.start op name addr))
      = decodeEventLine (encode p (.start op name addr)).bytes := rfl
    _ = .ok (.start op name addr) := by rw [hline, decodeEventLine_append_kwStartOp, decodeStart_append addr h]

/-! ## Steps and runs -/

theorem step_of_decode {s : State} {it : Item} {rest : List Item} {i : Instr} (hin : s.inbox = it :: rest)
    (hi : decode s.cfg it = .ok i) : step s = exec i s.taken := by
  rw [step, hin]
  dsimp only
  rw [hi]

/-- A datagram at the transport is an RX of it. -/
theorem step_of_transport {s : State} {D : Bytes} {rest : List Item} (hin : s.inbox = ⟨.transport, D⟩ :: rest) :
    step s = exec (.rx D) s.taken := by
  rw [step_of_decode (i := decodeDatagram D) hin rfl, rxRunsTheInstructionOfItsDatagram]

theorem core_run_succ {M : Host.Core} {s t : M.State} (k : Nat) (h : M.step s = .next t) :
    M.run (k + 1) s = M.run k t := by
  rw [Host.Core.run, h]

theorem run_succ_of_step {s t : State} (k : Nat) (h : step s = .next t) :
    Host.Core.run Sys2Proof.core (k + 1) s = Host.Core.run Sys2Proof.core k t :=
  core_run_succ (M := Sys2Proof.core) k h

/-! ## One block -/

/-- The state awaits block `blk` with the default parameters and `N_CW = n`, and the datagrams `Ds` are what will arrive. -/
structure State.Awaits (s : State) (n : Nat) (blk : BlockNo) (Ds : List Bytes) : Prop where
  cfg : s.cfg = Params.standard n
  state : s.state = .awaitingBlock
  expected : s.expected = blk
  inbox : s.inbox = Ds.map fun D => { port := .transport, bytes := D }

theorem fullDataBytes_standard (n : Nat) : (Params.standard n).fullDataBytes = dlen .separateCarry n := rfl

/-- An encoded block is no error packet. -/
theorem dataDatagram_rx_encodeBlock (blk : BlockNo) (bytes : Bytes) :
    dataDatagram (.rx (encodeBlock blk bytes)) = some (encodeBlock blk bytes) := by
  have hlong : ¬ (encodeBlock blk bytes).length < 4 := by rw [length_encodeBlock]; omega
  have hopcode : (encodeBlock blk bytes).getD 1 0 ≠ 0x05 := show (0x03 : Byte) ≠ 0x05 by decide
  rw [dataDatagram, if_neg (not_or_intro hlong hopcode)]

theorem headerBlock_encodeBlock (blk : BlockNo) (bytes : Bytes) : headerBlock (encodeBlock blk bytes) = blk :=
  blockOf_blockHi_blockLo blk

theorem trim_of_length_lt {p : Params} {out : Bytes} (h : out.length < p.trimThreshold) : trim p out = out.length :=
  if_neg ((trailingZeros_le_length out).trans_lt h).ne

section
variable {s : State} {n z : Nat} {blk : BlockNo} {chunk : Bytes} {Ds : List Bytes}

theorem State.Awaits.step_eq (h : s.Awaits n blk (encodeBlock blk chunk :: Ds)) :
    step s = exec (.rx (encodeBlock blk chunk)) s.taken :=
  step_of_transport h.inbox

theorem State.Awaits.length_le (h : s.Awaits n blk (encodeBlock blk chunk :: Ds)) (hcount : fragCount chunk.length ≤ n) :
    (encodeBlock blk chunk).length ≤ s.taken.cfg.maxDgram := by
  rw [length_encodeBlock, State.taken_cfg, h.cfg]
  exact Nat.add_le_add_left (Nat.mul_le_mul_left 4 hcount) 4

theorem State.Awaits.packetDecode_eq (h : s.Awaits n blk (encodeBlock blk chunk :: Ds))
    (hz : dlen .separateCarry (fragCount chunk.length) = chunk.length + z) :
    (packetDecode s.taken.cfg Deint.clear (encodeBlock blk chunk)).1 =
      .payload [0x00, 0x03, blockHi blk, blockLo blk] (chunk ++ List.replicate z 0x00)
        (trim (Params.standard n) (chunk ++ List.replicate z 0x00)) := by
  rw [State.taken_cfg, h.cfg]
  exact packetDecode_encodeBlock rfl rfl rfl _ _ _ hz

theorem State.Awaits.headerBlock_eq (h : s.Awaits n blk (encodeBlock blk chunk :: Ds)) :
    headerBlock (encodeBlock blk chunk) = s.taken.expected := by
  rw [headerBlock_encodeBlock, State.taken_expected, h.expected]

/-- An accepted block adds its bytes, cut to the trimmed length, to the file. -/
theorem State.Awaits.acceptedBytes_eq {t : State} (h : s.Awaits n blk (encodeBlock blk chunk :: Ds))
    (hcount : fragCount chunk.length ≤ n) (hz : dlen .separateCarry (fragCount chunk.length) = chunk.length + z)
    (hstep : step s = .next t) (htrim : trim (Params.standard n) (chunk ++ List.replicate z 0x00) = chunk.length + z) :
    acceptedBytes t = acceptedBytes s ++ chunk ++ List.replicate z 0x00 := by
  obtain ⟨-, hgrow⟩ := theFileGrowsByEachAcceptedBlock _ _ s.taken t (dataDatagram_rx_encodeBlock blk chunk) h.state
    (h.length_le hcount) (h.step_eq.symm.trans hstep)
  have hblock : blockOf ((encodeBlock blk chunk).getD 2 0) ((encodeBlock blk chunk).getD 3 0) = s.taken.expected :=
    h.headerBlock_eq
  rw [hgrow _ _ _ (h.packetDecode_eq hz), if_pos hblock, htrim, List.take_of_length_le (by simp), List.append_assoc]
  rfl

/-- A chunk that fills a block is held, and the next block is awaited. -/
theorem State.Awaits.step_full (h : s.Awaits n blk (encodeBlock blk chunk :: Ds)) (hcount : fragCount chunk.length = n)
    (hne : ∃ b ∈ chunk, b ≠ 0x00) (hz : dlen .separateCarry n = chunk.length + z) :
    ∃ t, step s = .next t ∧ t.Awaits n (blk + 1) Ds ∧
      acceptedBytes t = acceptedBytes s ++ chunk ++ List.replicate z 0x00 := by
  have hz' : dlen .separateCarry (fragCount chunk.length) = chunk.length + z := by rw [hcount, hz]
  have hlen : (chunk ++ List.replicate z 0x00).length = (Params.standard n).trimThreshold := by
    rw [List.length_append, List.length_replicate]; exact hz.symm
  have hnonzero : chunk ++ List.replicate z 0x00 ≠ List.replicate (Params.standard n).trimThreshold 0x00 := fun heq => by
    obtain ⟨b, hb, hb0⟩ := hne
    exact hb0 (List.eq_of_mem_replicate (heq ▸ List.mem_append_left _ hb))
  have htrim := trim_of_ne_replicate hlen hnonzero
  have hfull : trim (Params.standard n) (chunk ++ List.replicate z 0x00) = s.taken.cfg.fullDataBytes := by
    rw [htrim, State.taken_cfg, h.cfg]; rfl
  have hpay := h.packetDecode_eq hz'
  rw [hfull] at hpay
  have hexec := matchingFullBlockIsAccepted _ _ _ _ s.taken (dataDatagram_rx_encodeBlock blk chunk) h.state
    (h.length_le hcount.le) hpay h.headerBlock_eq
  have hstep := h.step_eq.trans hexec
  have hbytes := h.acceptedBytes_eq hcount.le hz' hstep (htrim.trans hz)
  exact ⟨_, hstep, ⟨h.cfg, h.state, congrArg (· + 1) h.expected, congrArg List.tail h.inbox⟩, hbytes⟩

/-- A shorter chunk ends the transfer. -/
theorem State.Awaits.step_short (h : s.Awaits n blk (encodeBlock blk chunk :: Ds)) (hcount : fragCount chunk.length < n)
    (hz : dlen .separateCarry (fragCount chunk.length) = chunk.length + z) :
    ∃ t, step s = .next t ∧ t.state = .done ∧ sinkBytes t.outbox = acceptedBytes s ++ chunk ++ List.replicate z 0x00 := by
  have hlen : (chunk ++ List.replicate z 0x00).length = chunk.length + z := by
    rw [List.length_append, List.length_replicate]
  have hlt : chunk.length + z < (Params.standard n).fullDataBytes := hz ▸ dlen_strictMono .separateCarry hcount
  have htrim : trim (Params.standard n) (chunk ++ List.replicate z 0x00) = chunk.length + z := by
    rw [trim_of_length_lt (hlen.trans_lt hlt), hlen]
  have hpay := h.packetDecode_eq hz
  rw [htrim] at hpay
  rw [← h.cfg] at hlt
  have hexec := matchingShortBlockEndsTheTransfer _ _ _ _ _ s.taken (dataDatagram_rx_encodeBlock blk chunk) h.state
    (h.length_le hcount.le) hpay h.headerBlock_eq hlt
  have hstep := h.step_eq.trans hexec
  have hbytes := h.acceptedBytes_eq hcount.le hz hstep htrim
  exact ⟨_, hstep, rfl, (List.append_nil _).symm.trans hbytes⟩

end

/-! ## The whole file -/

/-- Chunk `c` of a file cut every `full` bytes. -/
def fileChunk (full : Nat) (file : Bytes) (c : Nat) : Bytes :=
  (file.drop (c * full)).take full

theorem fileChunk_zero (full : Nat) (file : Bytes) : fileChunk full file 0 = file.take full := by
  rw [fileChunk, Nat.zero_mul, List.drop_zero]

theorem fileChunk_drop (full : Nat) (file : Bytes) (c : Nat) :
    fileChunk full (file.drop full) c = fileChunk full file (c + 1) := by
  rw [fileChunk, fileChunk, List.drop_drop, Nat.succ_mul, Nat.add_comm]

/-- Fewer bytes than a full block need no more codewords than one. -/
theorem fragCount_le {m n : Nat} (h : m ≤ dlen .separateCarry n) : fragCount m ≤ n := by
  rw [dlen] at h
  rw [fragCount, groupFragCount]
  split <;> omega

theorem fragCount_dlen (n : Nat) : fragCount (dlen .separateCarry n) = n := by
  rw [dlen, fragCount, groupFragCount]
  split <;> omega

theorem dlen_le (n : Nat) : dlen .separateCarry n ≤ 13 * (n + 1) := by
  rw [dlen]; omega

/-- From any state that awaits the first of the file's datagrams: induction on the chunks. -/
theorem State.Awaits.run_encodeFileFrom {n : Nat} (hn : 1 ≤ n) {k : Nat} {blk : BlockNo} {file : Bytes} {s : State}
    (hk : file.length < k) (h : s.Awaits n blk (encodeFileFrom n (dlen .separateCarry n) blk file k))
    (hne : ∀ c, fragCount (fileChunk (dlen .separateCarry n) file c).length = n →
      ∃ b ∈ fileChunk (dlen .separateCarry n) file c, b ≠ 0x00) :
    ∃ (t : State) (z : Nat),
      Host.Core.run Sys2Proof.core (encodeFileFrom n (dlen .separateCarry n) blk file k).length s = .next t ∧
        t.state = .done ∧ z ≤ 3 ∧ sinkBytes t.outbox = acceptedBytes s ++ file ++ List.replicate z 0x00 := by
  induction k generalizing blk file s with
  | zero => omega
  | succ k ih =>
    rw [encodeFileFrom, length_blockFrags (by omega)] at h ⊢
    have hfirst := hne 0
    rw [fileChunk_zero] at hfirst
    split at h
    case isTrue hshort =>
      rw [if_pos hshort]
      obtain ⟨z, hz3, hz⟩ := exists_dlen_fragCount file.length
      rw [List.take_of_length_le hshort.le] at hfirst
      split at h
      case isTrue hcount =>
        rw [if_pos hcount]
        obtain ⟨t, hstep, ht, hbytes⟩ := h.step_full hcount (hfirst hcount) (hcount ▸ hz)
        obtain ⟨u, hstep', hu, hbytes'⟩ := ht.step_short (chunk := []) (z := 0) hn rfl
        refine ⟨u, z, ?_, hu, hz3, ?_⟩
        · exact (run_succ_of_step 1 hstep).trans (run_succ_of_step 0 hstep')
        · rw [hbytes', hbytes]; simp
      case isFalse hcount =>
        rw [if_neg hcount]
        obtain ⟨t, hstep, ht, hbytes⟩ := h.step_short ((fragCount_le hshort.le).lt_of_ne hcount) hz
        exact ⟨t, z, run_succ_of_step 0 hstep, ht, hz3, hbytes⟩
    case isFalse hlong =>
      rw [if_neg hlong]
      have hlen : (file.take (dlen .separateCarry n)).length = dlen .separateCarry n := List.length_take_of_le (by omega)
      have hcount : fragCount (file.take (dlen .separateCarry n)).length = n := by rw [hlen, fragCount_dlen]
      obtain ⟨t, hstep, ht, hbytes⟩ := h.step_full (z := 0) hcount (hfirst hcount) hlen.symm
      have hpos : 0 < dlen .separateCarry n := (dlen_strictMono .separateCarry hn).pos
      obtain ⟨u, z, hrun, hu, hz3, hbytes'⟩ := ih (by rw [List.length_drop]; omega) ht fun c hc => by
        rw [fileChunk_drop] at hc ⊢
        exact hne (c + 1) hc
      refine ⟨u, z, (run_succ_of_step _ hstep).trans hrun, hu, hz3, ?_⟩
      rw [hbytes', hbytes, List.replicate_zero, List.append_nil, List.append_assoc (acceptedBytes s), List.take_append_drop]

/-- START, taken from the inbox in `Idle`, awaits the first block and leaves the file as it is. -/
theorem step_start {n : Nat} {name : Bytes} {s : State} {Ds : List Bytes} (hcfg : s.cfg = Params.standard n)
    (hs : s.state = .idle) (hname : (0 : Byte) ∉ name)
    (hin : s.inbox = encode s.cfg (.start 0x01 name .bound) :: Ds.map fun D => { port := .transport, bytes := D }) :
    ∃ t, step s = .next t ∧ t.Awaits n 0x0001 Ds ∧ acceptedBytes t = sinkBytes s.outbox := by
  have hvalid : ValidStart 0x01 name := ⟨.inl rfl, hname⟩
  have hexec := startSendsTheRequest 0x01 name s.taken hs hvalid.1 hname
  refine ⟨_, (step_of_decode hin (decode_encode_start s.cfg .bound hvalid)).trans hexec, ⟨hcfg, rfl, ?_, ?_⟩, ?_⟩
  · exact congrArg Params.initialExpected hcfg
  · exact congrArg List.tail hin
  · simp [acceptedBytes, sinkBytes_append, sinkBytes]

/-- Settles O60: START awaits the first block; then every chunk's block is accepted, and the first that is not full ends the
transfer. -/
theorem anEncodedFileIsReceived : Obligations.AnEncodedFileIsReceived := by
  intro n name file s hn hcfg hs hname hin hne
  obtain ⟨t, hstep, ht, hstart⟩ := step_start hcfg hs hname hin
  rw [hcfg] at ht hne
  obtain ⟨u, z, hrun, hu, hz3, hbytes⟩ := ht.run_encodeFileFrom hn (Nat.lt_succ_self _) fun c hc => by
    refine hne c ?_
    rw [fullDataBytes_standard, length_blockFrags ((List.length_take_le _ _).trans (dlen_le n))]
    exact hc
  refine ⟨u, z, ?_, hu, hz3, by rw [hbytes, hstart]⟩
  rw [hin, List.length_cons, List.length_map, hcfg]
  exact (run_succ_of_step _ hstep).trans hrun

end Sys2Proof.Machine
end

section
/-! The exceptions: that `Done` and `Error` absorb every event but RESET (60_exceptions.md R224), and the order in which RX
tests its conditions (R220). -/

namespace Sys2Proof.Machine

/-! ## `Done` and `Error` -/

theorem Session.ended_iff {t : Session} : t.ended = true ↔ t = .done ∨ t = .error := by
  cases t <;> simp [Session.ended]

/-- A row that is no event is one output, in every STATE (10_state.md R32; log 5, log 6). -/
theorem exists_exec_eq_emit {i : Instr} (hi : hostEvent i = false) (s : State) : ∃ o, exec i s = .next (s.emit o) := by
  cases i with
  | rrq name mode => exact ⟨.tx (requestBytes 0x01 name mode), rfl⟩
  | rrqErr name mode => exact ⟨.tx (requestBytes 0x02 name mode), rfl⟩
  | ack block => exact ⟨.tx (ackBytes block), rfl⟩
  | nack block => exact ⟨.tx (nackBytes block), rfl⟩
  | hamCodeword cw => exact ⟨.codec (hamDecode s.cfg cw), rfl⟩
  | error | data | rxOther | runt | reset | start | rx | timeout | fault => cases hi

/-- The host events are RESET, START and those of the wire (10_state.md R40). -/
theorem hostEvent_cases {i : Instr} (hi : hostEvent i = true) :
    i = .reset ∨ (∃ op name addr, i = .start op name addr) ∨ wireEvent i = true := by
  cases i with
  | reset => exact .inl rfl
  | start op name addr => exact .inr (.inl ⟨op, name, addr, rfl⟩)
  | error | data | rxOther | runt | rx | timeout | fault => exact .inr (.inr rfl)
  | rrq | rrqErr | ack | nack | hamCodeword => cases hi

theorem exec_start_invalid {op : Byte} {name : Bytes} (addr : PeerAddr) (s : State) (h : ¬ ValidStart op name) :
    exec (.start op name addr) s = .refused .invalidStart :=
  if_neg h

/-- An event other than RESET that a run which has ended does not refuse, it ignores (43_session.md R199). -/
theorem eq_of_exec_event_of_ended {i : Instr} {s t : State} (hi : hostEvent i = true) (hreset : i ≠ .reset)
    (hs : s.state = .done ∨ s.state = .error) (h : exec i s = .next t) : t = s := by
  obtain ⟨hwire, hstart⟩ := ignoredEventsChangeNothing
  obtain rfl | ⟨op, name, addr, rfl⟩ | hi := hostEvent_cases hi
  · exact absurd rfl hreset
  · by_cases hvalid : ValidStart op name
    · exact Host.Outcome.next.inj (h.symm.trans (hstart op name addr s hvalid (.inr hs)))
    · cases (exec_start_invalid addr s hvalid).symm.trans h
  · exact Host.Outcome.next.inj (h.symm.trans (hwire i s hi (.inr hs)))

/-- Settles O8: an event is ignored, a row that is no event only emits, and RESET writes `Idle`. -/
theorem onlyResetLeavesDoneAndError : Obligations.OnlyResetLeavesDoneAndError := by
  refine ⟨fun i s t hs hreset hexec => ?_, fun s t hexec => ?_⟩
  · cases hi : hostEvent i with
    | true =>
      obtain rfl := eq_of_exec_event_of_ended hi hreset (Session.ended_iff.1 hs) hexec
      exact ⟨rfl, fun _ => rfl⟩
    | false =>
      obtain ⟨o, ho⟩ := exists_exec_eq_emit hi s
      obtain rfl := Host.Outcome.next.inj (ho.symm.trans hexec)
      exact ⟨rfl, nofun⟩
  · obtain rfl := Host.Outcome.next.inj hexec
    rfl

/-! ## The conditions of RX -/

/-- What RX tells apart before any decoding (43_session.md R178): a runt, an error packet, and what the packet decoder gets. -/
theorem rx_datagram_cases (D : Bytes) :
    D.length < 4 ∨ (∃ b0 x y rest, D = [b0, 0x05, x, y] ++ rest) ∨ dataDatagram (.rx D) = some D := by
  obtain hshort | hlong := Nat.lt_or_ge D.length 4
  · exact .inl hshort
  · obtain ⟨b0, b1, x, y, rest, rfl⟩ := exists_header_append hlong
    by_cases herror : b1 = 0x05
    · exact .inr (.inl ⟨b0, x, y, rest, by rw [herror]⟩)
    · exact .inr (.inr (if_neg (not_or_intro hlong.not_gt herror)))

section
variable {s : State} {D : Bytes}

theorem rxCondition_of_length_lt_four (h : D.length < 4) : rxCondition s D = .runt :=
  if_pos h

theorem rxCondition_error (b0 x y : Byte) (rest : Bytes) : rxCondition s ([b0, 0x05, x, y] ++ rest) = .serverError :=
  rfl

theorem not_runt_not_error_of_dataDatagram_rx (hi : dataDatagram (.rx D) = some D) :
    ¬ D.length < 4 ∧ D.getD 1 0 ≠ 0x05 :=
  not_or.1 (Option.ite_none_left_eq_some.1 hi).1

theorem rxCondition_of_fail {k : Nat} (hi : dataDatagram (.rx D) = some D)
    (hfail : (packetDecode s.cfg Deint.clear D).1 = .fail k) : rxCondition s D = .uncorrectable := by
  obtain ⟨hlong, hopcode⟩ := not_runt_not_error_of_dataDatagram_rx hi
  rw [rxCondition, if_neg hlong, if_neg hopcode, hfail]

theorem rxCondition_of_payload {header out : Bytes} {len : Nat} (hi : dataDatagram (.rx D) = some D)
    (hpay : (packetDecode s.cfg Deint.clear D).1 = .payload header out len) :
    rxCondition s D = if headerBlock D ≠ s.expected then .mismatch else .none := by
  obtain ⟨hlong, hopcode⟩ := not_runt_not_error_of_dataDatagram_rx hi
  rw [rxCondition, if_neg hlong, if_neg hopcode, hpay, ← headerBlock_of_packetDecode hpay]

end

/-- After a match the next block is awaited, or the transfer is done. -/
theorem state_of_match {i : Instr} {D header out : Bytes} {len : Nat} {s t : State}
    (hi : dataDatagram i = some D) (hs : s.state = .awaitingBlock) (hD : D.length ≤ s.cfg.maxDgram)
    (hpay : (packetDecode s.cfg Deint.clear D).1 = .payload header out len) (heq : headerBlock D = s.expected)
    (hexec : exec i s = .next t) : t.state = .awaitingBlock ∨ t.state = .done := by
  by_cases hfull : len = s.cfg.fullDataBytes
  · subst hfull
    obtain rfl := Host.Outcome.next.inj ((exec_of_match_full hi hs hD hpay heq).symm.trans hexec)
    exact .inl (congrArg State.state (State.acceptFull_eq ..))
  · obtain rfl := Host.Outcome.next.inj ((exec_of_match_terminal hi hs hD hpay heq hfull).symm.trans hexec)
    exact .inr (congrArg State.state (State.acceptTerminal_eq ..))

/-- Settles O24: in each case of RX its condition has one value, and the state after it is the one of that case's path. -/
theorem rxTakesTheFirstCondition : Obligations.RxTakesTheFirstCondition := by
  intro D s t hs hD hexec
  obtain hshort | ⟨b0, x, y, rest, rfl⟩ | hi := rx_datagram_cases D
  · rw [rxCondition_of_length_lt_four hshort]
    obtain ⟨-, hrunt⟩ := runtIsDiscarded D s hs hshort
    exact ⟨fun _ => Host.Outcome.next.inj (hexec.symm.trans hrunt), nofun, nofun, nofun, nofun⟩
  · rw [rxCondition_error]
    have hrest : rest.length ≤ 4 * s.cfg.nCw := by
      rw [Params.maxDgram, List.length_append] at hD
      exact Nat.le_of_add_le_add_left hD
    obtain ⟨herror, hrx⟩ := errorPacketEndsTheTransfer b0 x y rest s hs hrest
    obtain rfl := Host.Outcome.next.inj ((hrx.trans herror).symm.trans hexec)
    exact ⟨nofun, fun _ => ⟨rfl, rfl, rfl⟩, nofun, nofun, nofun⟩
  cases hresult : (packetDecode s.cfg Deint.clear D).1 with
  | fail k =>
    rw [rxCondition_of_fail hi hresult]
    obtain rfl := Host.Outcome.next.inj ((exec_of_fail hi hs hD hresult).symm.trans hexec)
    rw [State.sendNack_eq]
    exact ⟨nofun, nofun, fun _ => ⟨rfl, rfl⟩, nofun, nofun⟩
  | payload header out len =>
    rw [rxCondition_of_payload hi hresult]
    by_cases heq : headerBlock D = s.expected
    · rw [if_neg (not_not_intro heq)]
      obtain ⟨hadvance, hack⟩ := expected_and_lastTx_of_match hi hs hD hresult heq hexec
      exact ⟨nofun, nofun, nofun, nofun, fun _ => ⟨hack, hadvance, state_of_match hi hs hD hresult heq hexec⟩⟩
    · rw [if_pos heq]
      obtain rfl := Host.Outcome.next.inj ((exec_of_mismatch hi hs hD hresult heq).symm.trans hexec)
      rw [State.dupAck_eq]
      exact ⟨nofun, nofun, nofun, fun _ => ⟨rfl, rfl⟩, nofun⟩

end Sys2Proof.Machine
end

section
/-! Header bytes that select nothing (70_reset_and_hazards.md R253; 30_encoding.md R79, R80): byte 0 of every datagram, the
opcode of one the data path gets, and bytes 2 and 3 of an error packet. -/

namespace Sys2Proof.Machine

section
variable (s : State)

/-- An error packet's path reads the message alone, which begins behind the header (43_session.md R180). -/
theorem State.errorPacket_congr {D E : Bytes} (hmessage : D.drop 4 = E.drop 4) : s.errorPacket D = s.errorPacket E := by
  rw [State.errorPacket, State.errorPacket, errorMessage, errorMessage, hmessage]

theorem exec_data_byte_zero (b0 c0 : Byte) (v : BlockNo) (rest : Bytes) :
    exec (.data b0 v rest) s = exec (.data c0 v rest) s := by
  rw [exec_data, exec_data]
  refine congrArg s.whenAwaiting (funext fun t => ?_)
  rw [State.received_header_append, State.received_header_append]
  exact State.dataPath_header_append _ _ _ _ _ _ _ _

theorem exec_error_header (b0 x y c0 x' y' : Byte) (rest : Bytes) :
    exec (.error b0 x y rest) s = exec (.error c0 x' y' rest) s := by
  rw [exec_error, exec_error]
  refine congrArg s.whenAwaiting (funext fun t => ?_)
  rw [State.received_header_append, State.received_header_append]
  exact State.errorPacket_congr _ rfl

end

/-- Settles O26: the data path reads neither the opcode nor byte 0, and the error packet's path nothing of the header. The
hypothesis on the opcode is not needed: RX_OTHER's meaning is the data path whatever its operand, and it is the decoder that
keeps `05` from it. -/
theorem headerBytesZeroAndOneAreUnchecked : Obligations.HeaderBytesZeroAndOneAreUnchecked := by
  refine ⟨fun b0 b0' op v rest s _ => ?_, fun b0 b0' x y x' y' rest s => exec_error_header s b0 x y b0' x' y' rest⟩
  calc exec (.rxOther b0 op v rest) s
    _ = exec (.data b0 v rest) s := exec_rxOther_eq_exec_data s b0 op v rest
    _ = exec (.data b0' v rest) s := exec_data_byte_zero s b0 b0' v rest

end Sys2Proof.Machine
end

section
/-! The encodings (30_encoding.md section 2, R83; 20_memory.md R53): what the decoder reads at each port, and that it reads exactly
what the encoder writes. -/

namespace Sys2Proof.Machine

/-! ## Script lines (30_encoding.md R83) -/

theorem decodeHexBytes_encodeHexBytes (D : Bytes) : decodeHexBytes (encodeHexBytes D) = some D := by
  induction D with
  | nil => rfl
  | cons b D ih =>
    have hhigh : hexValue (hexDigit (b.toNat / 16)) = some (b.toNat / 16) := hexValue_hexDigit ⟨b.toNat / 16, by omega⟩
    have hlow : hexValue (hexDigit (b.toNat % 16)) = some (b.toNat % 16) := hexValue_hexDigit ⟨b.toNat % 16, by omega⟩
    simp [encodeHexBytes, decodeHexBytes, hhigh, hlow, ih, Nat.div_add_mod]

/-- A byte that reads as a hexadecimal digit is the one digit of its value. -/
theorem hexDigit_of_hexValue {c : Byte} {n : Nat} (h : hexValue c = some n) : n < 16 ∧ hexDigit n = c := by
  unfold hexValue at h
  split at h
  case isTrue hdecimal =>
    obtain rfl := Option.some.inj h
    refine ⟨by omega, BitVec.eq_of_toNat_eq ?_⟩
    rw [hexDigit, if_pos (by omega), BitVec.toNat_ofNat]
    omega
  case isFalse =>
    obtain ⟨hletter, hvalue⟩ := Option.ite_none_right_eq_some.1 h
    obtain rfl := Option.some.inj hvalue
    refine ⟨by omega, BitVec.eq_of_toNat_eq ?_⟩
    rw [hexDigit, if_neg (by omega), BitVec.toNat_ofNat]
    omega

theorem encodeHexBytes_of_decodeHexBytes : ∀ {l D : Bytes}, decodeHexBytes l = some D → encodeHexBytes D = l
  | [], D, h => by obtain rfl := Option.some.inj h; rfl
  | [_], _, h | [_, _], _, h => by cases h
  | sp :: hi :: lo :: l, D, h => by
    simp only [decodeHexBytes] at h
    obtain ⟨rfl, hdigits⟩ := Option.ite_none_right_eq_some.1 h
    split at hdigits
    case h_1 high low D' hhigh hlow hrest =>
      obtain rfl := Option.some.inj hdigits
      obtain ⟨hhigh16, hhigh⟩ := hexDigit_of_hexValue hhigh
      obtain ⟨hlow16, hlow⟩ := hexDigit_of_hexValue hlow
      have hbyte : (BitVec.ofNat 8 (16 * high + low)).toNat = 16 * high + low :=
        Nat.mod_eq_of_lt (by omega)
      have hdiv : (16 * high + low) / 16 = high := by omega
      have hmod : (16 * high + low) % 16 = low := by omega
      rw [encodeHexBytes, hbyte, hdiv, hmod, hhigh, hlow, encodeHexBytes_of_decodeHexBytes hrest]
    case h_2 => cases hdigits

theorem decodeNameAddr_eq_some {l name : Bytes} {addr : PeerAddr} (h : decodeNameAddr l = some (name, addr)) :
    l = name ++ encodeAddr addr := by
  unfold decodeNameAddr at h
  split at h
  case h_1 hnone =>
    cases h
    exact eq_append_of_stripSuffix hnone
  case h_2 =>
    split at h
    case h_1 hbound =>
      cases h
      exact eq_append_of_stripSuffix hbound
    case h_2 => cases h

/-- A line read as START spells a valid START. -/
theorem decodeStart_eq_ok {l : Bytes} {i : Instr} (h : decodeStart l = .ok i) :
    ∃ op name addr, i = .start op name addr ∧ ValidStart op name ∧ l = (op + 0x30) :: (kwName ++ (name ++ encodeAddr addr)) := by
  cases l with
  | nil => cases h
  | cons d l =>
    simp only [decodeStart] at h
    split at h
    case h_1 => cases h
    case h_2 hname =>
    split at h
    case h_1 => cases h
    case h_2 name addr hbody =>
    split at h
    case isFalse => cases h
    case isTrue hvalid =>
    obtain ⟨hdigit, hzero⟩ := hvalid
    cases h
    refine ⟨d - 0x30, name, addr, rfl, ⟨hdigit.imp (by rintro rfl; rfl) (by rintro rfl; rfl), hzero⟩, ?_⟩
    rw [BitVec.sub_add_cancel, eq_append_of_stripPrefix hname, decodeNameAddr_eq_some hbody]

theorem decodeEventLine_append_kwRx (D : Bytes) : decodeEventLine (kwRx ++ encodeHexBytes D) = .ok (.rx D) := by
  have hne : ∀ kw : Bytes, kw.take 2 ≠ kwRx → kwRx ++ encodeHexBytes D ≠ kw := fun kw hkw h => hkw (h ▸ rfl)
  have hstart : stripPrefix kwStartOp (kwRx ++ encodeHexBytes D) = none := rfl
  simp only [decodeEventLine, if_neg (hne kwReset (by decide)), if_neg (hne kwTimeout (by decide)),
    if_neg (hne kwFault (by decide)), hstart, stripPrefix_append, decodeHexBytes_encodeHexBytes]

/-- A script line that is read is the line of a well-formed event. -/
theorem decodeEventLine_eq_ok {p : Params} {l : Bytes} {i : Instr} (h : decodeEventLine l = .ok i) :
    i.WellFormed ∧ encode p i = ⟨.script, l⟩ := by
  unfold decodeEventLine at h
  split at h
  case isTrue hl =>
    cases h
    exact ⟨trivial, hl ▸ rfl⟩
  split at h
  case isTrue hl =>
    cases h
    exact ⟨trivial, hl ▸ rfl⟩
  split at h
  case isTrue hl =>
    cases h
    exact ⟨trivial, hl ▸ rfl⟩
  split at h
  case h_1 hstart =>
    obtain ⟨op, name, addr, rfl, hvalid, rfl⟩ := decodeStart_eq_ok h
    refine ⟨hvalid, ?_⟩
    simp [encode, encodeBytes, Instr.port, eq_append_of_stripPrefix hstart]
  case h_2 =>
  split at h
  case h_2 => cases h
  case h_1 hrx =>
  split at h
  case h_2 => cases h
  case h_1 D hhex =>
    cases h
    refine ⟨trivial, ?_⟩
    rw [eq_append_of_stripPrefix hrx, ← encodeHexBytes_of_decodeHexBytes hhex]
    rfl

/-! ## Packets (30_encoding.md section 2) -/

/-- A received datagram is read as a well-formed instruction, which keeps all its bytes. -/
theorem encode_decodeDatagram (p : Params) (D : Bytes) :
    (decodeDatagram D).WellFormed ∧ encode p (decodeDatagram D) = ⟨.transport, D⟩ := by
  obtain hshort | hlong := Nat.lt_or_ge D.length 4
  · rw [decodeDatagram_of_length_lt_four hshort]
    exact ⟨hshort, rfl⟩
  · obtain ⟨b0, b1, b2, b3, rest, rfl⟩ := exists_header_append hlong
    by_cases herror : b1 = 0x05
    · rw [herror, decodeDatagram_error]
      exact ⟨trivial, rfl⟩
    by_cases hdata : b1 = 0x03
    · rw [hdata, decodeDatagram_data, encode, encodeBytes, blockHi_blockOf, blockLo_blockOf]
      exact ⟨trivial, rfl⟩
    · rw [decodeDatagram_rxOther b0 b1 b2 b3 rest herror hdata, encode, encodeBytes, blockHi_blockOf, blockLo_blockOf]
      exact ⟨⟨hdata, herror⟩, rfl⟩

theorem decodeRequestFields_append {name mode : Bytes} (hname : (0 : Byte) ∉ name) (hmode : (0 : Byte) ∉ mode) :
    decodeRequestFields (name ++ 0 :: (mode ++ [0])) = some (name, mode) := by
  rw [decodeRequestFields, splitAtZero_append name _ hname]
  dsimp only
  rw [splitAtZero_append mode _ hmode]

theorem decodeRequestFields_eq_some {l name mode : Bytes} (h : decodeRequestFields l = some (name, mode)) :
    l = name ++ 0 :: (mode ++ [0]) ∧ (0 : Byte) ∉ name ∧ (0 : Byte) ∉ mode := by
  unfold decodeRequestFields at h
  split at h
  case h_2 => cases h
  case h_1 hfirst =>
  split at h
  case h_2 => cases h
  case h_1 hsecond =>
  cases h
  obtain ⟨rfl, hname⟩ := splitAtZero_spec hfirst
  obtain ⟨rfl, hmode⟩ := splitAtZero_spec hsecond
  exact ⟨rfl, hname, hmode⟩

theorem decodeSent_rrq {l name mode : Bytes} (h : decodeRequestFields l = some (name, mode)) :
    decodeSent (0x00 :: 0x01 :: l) = .ok (.rrq name mode) := by
  simp [decodeSent, h]

theorem decodeSent_rrqErr {l name mode : Bytes} (h : decodeRequestFields l = some (name, mode)) :
    decodeSent (0x00 :: 0x02 :: l) = .ok (.rrqErr name mode) := by
  simp [decodeSent, h]

section
variable (p : Params) (name mode : Bytes) (hi lo : Byte)

theorem encode_rrq : encode p (.rrq name mode) = ⟨.sender, 0x00 :: 0x01 :: (name ++ 0 :: (mode ++ [0]))⟩ := by
  simp [encode, encodeBytes, Instr.port]

theorem encode_rrqErr : encode p (.rrqErr name mode) = ⟨.sender, 0x00 :: 0x02 :: (name ++ 0 :: (mode ++ [0]))⟩ := by
  simp [encode, encodeBytes, Instr.port]

theorem encode_ack_blockOf : encode p (.ack (blockOf hi lo)) = ⟨.sender, [0x00, 0x04, hi, lo]⟩ := by
  rw [encode, encodeBytes, blockHi_blockOf, blockLo_blockOf, Instr.port]

theorem encode_nack_blockOf : encode p (.nack (blockOf hi lo)) = ⟨.sender, [0x00, 0x06, hi, lo]⟩ := by
  rw [encode, encodeBytes, blockHi_blockOf, blockLo_blockOf, Instr.port]

end

section
variable {p : Params} {l : Bytes} {i : Instr}

/-- A packet to send that is read is the packet of a well-formed request, ACK or NACK: by its second byte. -/
theorem decodeSent_eq_ok (h : decodeSent l = .ok i) : i.WellFormed ∧ encode p i = ⟨.sender, l⟩ := by
  unfold decodeSent at h
  split at h
  case h_2 => cases h
  case h_1 b0 b1 rest =>
  split at h
  case isTrue => cases h
  case isFalse hb0 =>
  obtain rfl := not_not.1 hb0
  split at h
  case isTrue hop =>
    split at h <;> cases h
    case h_1 hfields =>
    obtain ⟨rfl, hvalid⟩ := decodeRequestFields_eq_some hfields
    exact ⟨hvalid, hop ▸ encode_rrq p _ _⟩
  split at h
  case isTrue hop =>
    split at h <;> cases h
    case h_1 hfields =>
    obtain ⟨rfl, hvalid⟩ := decodeRequestFields_eq_some hfields
    exact ⟨hvalid, hop ▸ encode_rrqErr p _ _⟩
  split at h
  case isTrue hop =>
    split at h <;> cases h
    case h_1 hi lo => exact ⟨trivial, hop ▸ encode_ack_blockOf p hi lo⟩
  split at h
  case isFalse => cases h
  case isTrue hop =>
    split at h <;> cases h
    case h_1 hi lo => exact ⟨trivial, hop ▸ encode_nack_blockOf p hi lo⟩

end

/-! ## Codewords (20_memory.md R53) -/

theorem decodeCodeword_wireBytes (m : WireBitMap) (cw : Codeword) :
    decodeCodeword m (wireBytes m cw) = .ok (.hamCodeword cw) := by
  cases m with
  | le => rw [wireBytes, decodeCodeword, assemble_wireBytes_le]
  | be => rw [wireBytes, decodeCodeword, assemble_be_eq_le_reversed, assemble_wireBytes_le]

theorem wireBytes_le_assemble (b0 b1 b2 b3 : Byte) : wireBytes .le (assemble .le b0 b1 b2 b3) = [b0, b1, b2, b3] := by
  have hbyte : ∀ k, k < 4 → (assemble .le b0 b1 b2 b3).extractLsb' (8 * k) 8 = [b0, b1, b2, b3].getD k 0 := fun k hk => by
    refine BitVec.eq_of_getLsbD_eq fun j hj => ?_
    rw [BitVec.getLsbD_extractLsb', decide_eq_true hj, Bool.true_and, getLsbD_assemble_le _ _ _ _ _ (by omega)]
    congr 2 <;> omega
  have h0 := hbyte 0 (by omega)
  have h1 := hbyte 1 (by omega)
  have h2 := hbyte 2 (by omega)
  have h3 := hbyte 3 (by omega)
  rw [wireBytes, h0, h1, h2, h3]
  rfl

theorem wireBytes_assemble (m : WireBitMap) (b0 b1 b2 b3 : Byte) :
    wireBytes m (assemble m b0 b1 b2 b3) = [b0, b1, b2, b3] := by
  cases m with
  | le => exact wireBytes_le_assemble b0 b1 b2 b3
  | be =>
    rw [assemble_be_eq_le_reversed]
    exact congrArg List.reverse (wireBytes_le_assemble b3 b2 b1 b0)

theorem decodeCodeword_eq_ok {p : Params} {l : Bytes} {i : Instr} (h : decodeCodeword p.wireBitMap l = .ok i) :
    i.WellFormed ∧ encode p i = ⟨.codec, l⟩ := by
  unfold decodeCodeword at h
  split at h
  case h_1 b0 b1 b2 b3 =>
    cases h
    exact ⟨trivial, congrArg (Item.mk .codec) (wireBytes_assemble p.wireBitMap b0 b1 b2 b3)⟩
  case h_2 => cases h

/-! ## Every port -/

/-- An input that decodes is the encoding of the instruction it gives, and that is well formed: by the port. -/
theorem decode_eq_ok {p : Params} {it : Item} {i : Instr} (h : decode p it = .ok i) : i.WellFormed ∧ encode p i = it := by
  obtain ⟨port, bytes⟩ := it
  cases port with
  | script => exact decodeEventLine_eq_ok h
  | transport => cases h; exact encode_decodeDatagram p bytes
  | sender => exact decodeSent_eq_ok h
  | codec => exact decodeCodeword_eq_ok h

/-- The input of a well-formed instruction is read as that instruction: by the instruction. -/
theorem decode_encode (p : Params) {i : Instr} (h : i.WellFormed) : decode p (encode p i) = .ok i := by
  cases i with
  | rrq name mode =>
    obtain ⟨hname, hmode⟩ := h
    rw [encode_rrq]
    exact decodeSent_rrq (decodeRequestFields_append hname hmode)
  | rrqErr name mode =>
    obtain ⟨hname, hmode⟩ := h
    rw [encode_rrqErr]
    exact decodeSent_rrqErr (decodeRequestFields_append hname hmode)
  | ack v => exact congrArg (fun w => Except.ok (Instr.ack w)) (blockOf_blockHi_blockLo v)
  | nack v => exact congrArg (fun w => Except.ok (Instr.nack w)) (blockOf_blockHi_blockLo v)
  | error b0 x y rest => exact congrArg Except.ok (decodeDatagram_error b0 x y rest)
  | data b0 v rest =>
    exact congrArg Except.ok ((decodeDatagram_data b0 _ _ rest).trans (by rw [blockOf_blockHi_blockLo]))
  | rxOther b0 op v rest =>
    obtain ⟨hdata, herror⟩ := h
    exact congrArg Except.ok
      ((decodeDatagram_rxOther b0 op _ _ rest herror hdata).trans (by rw [blockOf_blockHi_blockLo]))
  | runt D => exact congrArg Except.ok (decodeDatagram_of_length_lt_four h)
  | hamCodeword cw => exact decodeCodeword_wireBytes p.wireBitMap cw
  | start op name addr => exact decode_encode_start p addr h
  | rx D => exact decodeEventLine_append_kwRx D
  | reset | timeout | fault => rfl

/-- Settles O36: each instruction's bytes are read by its own branch of the decoder at its port. -/
theorem decodingAnEncodingGivesTheInstruction : Obligations.DecodingAnEncodingGivesTheInstruction :=
  fun p _ h => decode_encode p h

/-- Settles O37: what every branch of the decoder that answers says of the bytes it has read. -/
theorem encodingADecodingGivesTheInput : Obligations.EncodingADecodingGivesTheInput :=
  fun _ _ _ h => (decode_eq_ok h).2

/-- Settles O38: the branches that answer test what well-formedness asks. -/
theorem decodedInstructionsAreWellFormed : Obligations.DecodedInstructionsAreWellFormed :=
  fun _ _ _ h => (decode_eq_ok h).1

end Sys2Proof.Machine
end

section
/-! What a step can do, said once (10_state.md R32, 43_session.md R170-R199): every transition of the session by name, that `exec`
makes no other, and what all of them keep. -/

namespace Sys2Proof.Machine

/-! ## The transitions -/

/-- What instruction `i` can make of `s`. From `Idle` only START leads on; from `AwaitingBlock`, a datagram, a timeout or a fault
(43_session.md R170). -/
inductive Transition (i : Instr) (s : State) : State → Prop where
  /-- An event is ignored, or a runt discarded (43_session.md R171, R179). -/
  | ignored : Transition i s s
  /-- A row that is no event emits one output (10_state.md R32). -/
  | emitted (o : Output) : Transition i s (s.emit o)
  | reset (hi : i = .reset) :
    Transition i s
      { State.resetWith s.cfg with inbox := s.inbox, outbox := s.outbox, stateTrace := s.stateTrace ++ [.idle] }
  | noHost {op : Byte} {name : Bytes} (hi : i = .start op name .none) (hs : s.state = .idle) :
    Transition i s s.beginTransfer.noHost
  | requested {op : Byte} {name : Bytes} (hi : i = .start op name .bound) (hs : s.state = .idle) :
    Transition i s (s.beginTransfer.sendRequest op name)
  | timedOut (hs : s.state = .awaitingBlock) : Transition i s s.timeoutStep
  | faulted (hs : s.state = .awaitingBlock) : Transition i s (s.report (.log .transportFault)).timeoutStep
  | serverError (hs : s.state = .awaitingBlock) (D : Bytes) : Transition i s (s.clearResends.errorPacket D)
  | nacked (hs : s.state = .awaitingBlock) (D : Bytes) : Transition i s (s.captureAndDecode D).sendNack
  | mismatched (hs : s.state = .awaitingBlock) (D : Bytes) : Transition i s (s.captureAndDecode D).dupAck
  | acceptedFull (hs : s.state = .awaitingBlock) (D : Bytes) {out : Bytes} (hout : out.length = s.cfg.fullDataBytes) :
    Transition i s ((s.captureAndDecode D).acceptFull out s.cfg.fullDataBytes)
  | acceptedTerminal (hs : s.state = .awaitingBlock) (D : Bytes) {out : Bytes} {len : Nat} (hlen : len ≤ out.length)
    (hout : out.length ≤ s.cfg.fullDataBytes) : Transition i s ((s.captureAndDecode D).acceptTerminal out len)

/-! ## `exec` makes these transitions -/

section
variable {i : Instr} {s t : State}

theorem State.length_received_le (s : State) (D : Bytes) : (s.received D).length ≤ s.cfg.maxDgram :=
  List.length_take_le _ _

/-- A datagram of at most MAX_DGRAM bytes decodes to at most FULL_DATA_BYTES (20_memory.md R51). -/
theorem length_out_le_of_packetDecode {p : Params} {d : Deint} {D header out : Bytes} {len : Nat}
    (hD : D.length ≤ p.maxDgram) (h : (packetDecode p d D).1 = .payload header out len) : out.length ≤ p.fullDataBytes := by
  obtain ⟨hall, -, rfl, -⟩ := packetDecode_eq_payload_iff.1 h
  rw [length_deinterleave, length_fragsOf_of_firstUncorrectable_eq_none hall, Params.fullDataBytes]
  refine (dlen_strictMono p.packing).monotone ?_
  rw [Params.maxDgram] at hD
  omega

/-- The data path on what the receive buffer holds ends in one of its four results (43_session.md R178). -/
theorem transition_dataPath (hs : s.state = .awaitingBlock) {D : Bytes} (hD : D.length ≤ s.cfg.maxDgram) :
    Transition i s (s.clearResends.dataPath D) := by
  have hpath : s.clearResends.dataPath D = (s.captureAndDecode D).handleResult (packetDecode s.cfg s.deint D).1 := by
    rw [State.dataPath_eq, packetDecode_deint]; rfl
  rw [hpath]
  cases hresult : (packetDecode s.cfg s.deint D).1 with
  | fail k => exact .nacked hs D
  | payload header out len =>
    have hout := length_out_le_of_packetDecode hD hresult
    have hlen : len ≤ out.length := by
      obtain ⟨-, -, -, rfl⟩ := packetDecode_eq_payload_iff.1 hresult
      exact trim_le_length s.cfg out
    simp only [State.handleResult]
    split
    case isTrue => exact .mismatched hs D
    case isFalse =>
    split
    case isTrue hfull =>
      have hfull : len = s.cfg.fullDataBytes := hfull
      subst hfull
      exact .acceptedFull hs D (hout.antisymm hlen)
    case isFalse => exact .acceptedTerminal hs D hlen hout

theorem transition_rxStep (hs : s.state = .awaitingBlock) (D : Bytes) : Transition i s (s.rxStep D) := by
  unfold State.rxStep
  dsimp only
  split
  · exact .ignored
  · split
    · exact .serverError hs _
    · exact transition_dataPath hs (s.length_received_le D)

theorem transition_of_whenAwaiting {f : State → State} (hf : s.state = .awaitingBlock → Transition i s (f s))
    (h : s.whenAwaiting f = .next t) : Transition i s t := by
  obtain ⟨hs, rfl⟩ | ⟨-, -, rfl⟩ := s.whenAwaiting_eq_next h
  · exact hf hs
  · exact .ignored

theorem transition_of_execStart {op : Byte} {name : Bytes} {addr : PeerAddr} (h : execStart op name addr s = .next t) :
    Transition (.start op name addr) s t := by
  unfold execStart at h
  split at h
  · obtain ⟨hs, rfl⟩ | ⟨-, -, rfl⟩ := s.whenIdle_eq_next h
    · cases addr with
      | none => exact .noHost rfl hs
      | bound => exact .requested rfl hs
    · exact .ignored
  · cases h

theorem transition_of_emit {o : Output} (h : (.next (s.emit o) : Host.Outcome State Fault Refusal) = .next t) :
    Transition i s t := by
  obtain rfl := Host.Outcome.next.inj h
  exact .emitted o

theorem transition_of_exec (h : exec i s = .next t) : Transition i s t := by
  cases i with
  | rrq | rrqErr | ack | nack | hamCodeword => exact transition_of_emit h
  | error b0 x y rest =>
    rw [exec_error] at h
    exact transition_of_whenAwaiting (fun hs => .serverError hs _) h
  | data b0 v rest =>
    rw [exec_data] at h
    exact transition_of_whenAwaiting (fun hs => transition_dataPath hs (s.length_received_le _)) h
  | rxOther b0 op v rest =>
    rw [exec_rxOther] at h
    exact transition_of_whenAwaiting (fun hs => transition_dataPath hs (s.length_received_le _)) h
  | runt D =>
    rw [exec_runt] at h
    exact transition_of_whenAwaiting (fun _ => .ignored) h
  | rx D =>
    rw [exec_rx] at h
    exact transition_of_whenAwaiting (fun hs => transition_rxStep hs D) h
  | timeout =>
    rw [exec_timeout] at h
    exact transition_of_whenAwaiting .timedOut h
  | fault =>
    rw [exec_fault] at h
    exact transition_of_whenAwaiting .faulted h
  | reset =>
    obtain rfl := Host.Outcome.next.inj h
    exact .reset rfl
  | start op name addr => exact transition_of_execStart h

end

/-! ## The parameters, the outputs and EXPECTED -/

section
variable {i : Instr} {s t : State}

/-- The TIMEOUT step writes neither the parameters nor EXPECTED (43_session.md R195, R197). -/
theorem State.timeoutStep_cfg_expected (s : State) :
    s.timeoutStep.cfg = s.cfg ∧ s.timeoutStep.expected = s.expected := by
  cases h : s.cfg.maxResends.reached s.resends with
  | true => rw [State.timeoutStep_of_reached s h, State.retryExhausted_eq]; exact ⟨rfl, rfl⟩
  | false => rw [State.timeoutStep_of_not_reached s h]; exact ⟨rfl, rfl⟩

theorem Transition.cfg_eq (h : Transition i s t) : t.cfg = s.cfg := by
  cases h with
  | ignored | emitted | reset | noHost | requested | serverError | nacked | mismatched => rfl
  | timedOut => exact s.timeoutStep_cfg_expected.1
  | faulted => exact (s.report (.log .transportFault)).timeoutStep_cfg_expected.1
  | acceptedFull => rw [State.acceptFull_eq]; rfl
  | acceptedTerminal => rw [State.acceptTerminal_eq]; rfl

/-- Going from `s` to `t` appends outputs, at most one of them a datagram (43_session.md R198 item 6). -/
def State.SendsAtMostOne (s t : State) : Prop :=
  ∃ os : List Output, t.outbox = s.outbox ++ os ∧ os.countP Output.isTx ≤ 1

theorem State.SendsAtMostOne.of_outbox_eq (h : t.outbox = s.outbox) : s.SendsAtMostOne t :=
  ⟨[], by rw [h, List.append_nil], Nat.zero_le 1⟩

theorem State.SendsAtMostOne.of_singleton {o : Output} (h : t.outbox = s.outbox ++ [o]) : s.SendsAtMostOne t :=
  ⟨[o], h, List.countP_le_length⟩

/-- A report may come before. -/
theorem State.SendsAtMostOne.of_report {r : Report} (h : (s.report r).SendsAtMostOne t) : s.SendsAtMostOne t := by
  obtain ⟨os, hos, hcount⟩ := h
  refine ⟨.report r :: os, by rw [hos, State.report_outbox, List.append_assoc]; rfl, ?_⟩
  rwa [List.countP_cons_of_neg (by simp [Output.isTx])]

theorem countP_isTx_heldWrite (s : State) : (heldWrite s).countP Output.isTx = 0 := by
  unfold heldWrite; split <;> rfl

/-- What is emitted behind the block held before counts alone: writing that block sends nothing. -/
theorem State.SendsAtMostOne.of_heldWrite {u : State} {os : List Output} (h : t.outbox = s.outbox ++ heldWrite u ++ os)
    (hos : os.countP Output.isTx ≤ 1) : s.SendsAtMostOne t :=
  ⟨heldWrite u ++ os, by rw [h, List.append_assoc], by rwa [List.countP_append, countP_isTx_heldWrite, Nat.zero_add]⟩

theorem State.enterError_sendsAtMostOne (s : State) (c : Condition) (msg : Option Bytes) :
    s.SendsAtMostOne (s.enterError c msg) :=
  ⟨[.sinkClose, .report (.error c msg)], by rw [State.enterError_eq], Nat.zero_le 1⟩

theorem State.timeoutStep_sendsAtMostOne (s : State) : s.SendsAtMostOne s.timeoutStep := by
  cases h : s.cfg.maxResends.reached s.resends with
  | true => rw [State.timeoutStep_of_reached s h]; exact s.enterError_sendsAtMostOne _ _
  | false => rw [State.timeoutStep_of_not_reached s h]; exact .of_singleton rfl

theorem Transition.sendsAtMostOne (h : Transition i s t) : s.SendsAtMostOne t := by
  cases h with
  | ignored => exact .of_outbox_eq rfl
  | emitted o => exact .of_singleton rfl
  | reset => exact .of_outbox_eq rfl
  | noHost => exact .of_singleton (congrArg State.outbox (State.noHost_eq _))
  | requested => exact .of_singleton (congrArg State.outbox (State.sendRequest_eq ..))
  | timedOut => exact s.timeoutStep_sendsAtMostOne
  | faulted => exact .of_report (State.timeoutStep_sendsAtMostOne _)
  | serverError => exact s.clearResends.enterError_sendsAtMostOne _ _
  | nacked => exact .of_singleton (congrArg State.outbox (State.sendNack_eq _))
  | mismatched => exact .of_singleton (congrArg State.outbox (State.dupAck_eq _))
  | acceptedFull => exact .of_heldWrite (congrArg State.outbox (State.acceptFull_eq ..)) (Nat.le_refl 1)
  | acceptedTerminal => exact .of_heldWrite (congrArg State.outbox (State.acceptTerminal_eq ..)) (Nat.le_refl 1)

/-- Block `s.expected` has been accepted in `t`: ACKed, and either held with more to come or the last one (43_session.md R185,
R190, R193). -/
def State.AcceptedIn (s t : State) : Prop :=
  t.expected = s.expected + 1 ∧ t.lastTx = ackBytes s.expected ∧ t.nackValid = false ∧
    ((t.state = .awaitingBlock ∧ t.pendValid = true) ∨ (t.state = .done ∧ t.terminal = true))

theorem Transition.expected_eq_or_acceptedIn (h : Transition i s t) (hreset : i ≠ .reset)
    (hstart : ∀ op name addr, i ≠ .start op name addr) : t.expected = s.expected ∨ s.AcceptedIn t := by
  cases h with
  | ignored | emitted | serverError | nacked | mismatched => exact .inl rfl
  | reset hi => exact absurd hi hreset
  | noHost hi | requested hi => exact absurd hi (hstart _ _ _)
  | timedOut => exact .inl s.timeoutStep_cfg_expected.2
  | faulted => exact .inl (s.report (.log .transportFault)).timeoutStep_cfg_expected.2
  | acceptedFull => rw [State.acceptFull_eq]; exact .inr ⟨rfl, rfl, rfl, .inl ⟨rfl, rfl⟩⟩
  | acceptedTerminal => rw [State.acceptTerminal_eq]; exact .inr ⟨rfl, rfl, rfl, .inr ⟨rfl, rfl⟩⟩

end

/-- Settles O5: a step waits or makes a transition, and no transition writes the parameters. -/
theorem noStepChangesTheParameters : Obligations.NoStepChangesTheParameters := by
  intro s t h
  obtain rfl | ⟨i, hexec⟩ := step_eq_next h
  · rfl
  · exact (transition_of_exec hexec).cfg_eq

/-- Settles O6: every transition appends outputs, and sends at most once. -/
theorem stepsAppendAtMostOneDatagram : Obligations.StepsAppendAtMostOneDatagram := by
  intro s t h
  obtain rfl | ⟨i, hexec⟩ := step_eq_next h
  · exact State.SendsAtMostOne.of_outbox_eq rfl
  · exact (transition_of_exec hexec).sendsAtMostOne

/-- Settles O7: besides RESET and START only the two acceptances write EXPECTED. -/
theorem expectedAdvancesOnlyOnAcceptance : Obligations.ExpectedAdvancesOnlyOnAcceptance :=
  fun _ _ _ hreset hstart h => (transition_of_exec h).expected_eq_or_acceptedIn hreset hstart

/-! ## The invariant -/

/-- What the invariant says of a state that awaits a block (10_state.md R24-R30). -/
structure State.AwaitingOk (s : State) : Prop where
  pendData : s.pendData.length = s.cfg.fullDataBytes
  pendLen : s.pendLen ≤ s.cfg.fullDataBytes
  pendFull : s.pendValid = true → s.pendLen = s.cfg.fullDataBytes
  sinkOpen : s.sinkOpen = true
  lastTxValid : s.lastTxValid = true
  terminal : s.terminal = false
  errKind : s.errKind = .none
  errMsg : s.errMsg = []
  resends : s.ResendsOk
  deint : s.deint = Deint.clear

section
variable {i : Instr} {s t : State}

theorem State.inv_iff_awaitingOk (hs : s.state = .awaitingBlock) : s.Inv ↔ s.AwaitingOk := by
  constructor
  · rintro ⟨⟨hdata, hlen, hpend⟩, ⟨-, hsink, hlast, hterm, hkind, hmsg⟩, -, hresends, hdeint⟩
    have hnone : s.errKind = .none := by simpa [hs] using hkind
    exact
      { pendData := hdata, pendLen := hlen, pendFull := fun h => (hpend h).2, sinkOpen := hsink.2 hs
        lastTxValid := hlast hs, terminal := by simpa [hs] using hterm, errKind := hnone
        errMsg := by simpa [hnone] using hmsg, resends := hresends, deint := hdeint }
  · intro h
    refine ⟨⟨h.pendData, h.pendLen, fun hv => ⟨hs, h.pendFull hv⟩⟩, ?_, ?_, h.resends, h.deint⟩
    · simp [State.SessionOk, hs, Session.resting, h.sinkOpen, h.lastTxValid, h.terminal, h.errKind, h.errMsg]
    · simp [State.IdleOk, hs]

theorem ResendBound.allows_zero (b : ResendBound) : b.allows 0 = true := by
  cases b <;> simp [ResendBound.allows]

/-- One more resend is allowed where the bound is not reached (43_session.md R195). -/
theorem ResendBound.allows_succ {b : ResendBound} {r : Nat} (h : b.reached r = false) : b.allows (r + 1) = true := by
  cases b with
  | unbounded => rfl
  | atMost n => exact decide_eq_true (Nat.succ_le_of_lt (Nat.lt_of_not_le (of_decide_eq_false h)))

theorem State.resetWith_inv (p : Params) : (State.resetWith p).Inv := by
  refine ⟨⟨?_, ?_, ?_⟩, ?_, ?_, ResendBound.allows_zero _, rfl⟩
  · exact List.length_replicate
  · exact Nat.zero_le _
  · exact nofun
  · simp [State.SessionOk, Session.resting]
  · exact fun _ => ⟨rfl, rfl, rfl, rfl, rfl, rfl⟩

/-- START writes every register the invariant speaks of but PEND_DATA and the de-interleaver's (43_session.md R175). -/
theorem State.Inv.noHost (h : s.Inv) : s.beginTransfer.noHost.Inv := by
  obtain ⟨⟨hdata, -, -⟩, -, -, -, hdeint⟩ := h
  rw [State.noHost_eq]
  refine ⟨⟨hdata, Nat.zero_le _, nofun⟩, ?_, nofun, ResendBound.allows_zero _, hdeint⟩
  simp [State.SessionOk, Session.resting]

theorem State.Inv.sendRequest (h : s.Inv) (op : Byte) (name : Bytes) : (s.beginTransfer.sendRequest op name).Inv := by
  obtain ⟨⟨hdata, -, -⟩, -, -, -, hdeint⟩ := h
  rw [State.sendRequest_eq]
  exact (State.inv_iff_awaitingOk rfl).2
    { pendData := hdata, pendLen := Nat.zero_le _, pendFull := nofun, sinkOpen := rfl, lastTxValid := rfl
      terminal := rfl, errKind := rfl, errMsg := rfl, resends := ResendBound.allows_zero _, deint := hdeint }

namespace State.AwaitingOk

theorem inv (h : s.AwaitingOk) (hs : s.state = .awaitingBlock) : s.Inv :=
  (State.inv_iff_awaitingOk hs).2 h

theorem enterError (h : s.AwaitingOk) {c : Condition} {msg : Option Bytes} (hc : c ≠ .none)
    (hmsg : msg ≠ none → c = .serverError) : (s.enterError c msg).Inv := by
  rw [State.enterError_eq]
  refine ⟨⟨h.pendData, h.pendLen, nofun⟩, ⟨rfl, ?_, nofun, ?_, ?_, ?_⟩, nofun, h.resends, h.deint⟩
  · simp
  · simp [h.terminal]
  · simp [hc]
  · cases msg with
    | none => exact fun hne => absurd h.errMsg hne
    | some m => exact fun _ => hmsg nofun

theorem timeoutStep (h : s.AwaitingOk) (hs : s.state = .awaitingBlock) : s.timeoutStep.Inv := by
  cases hr : s.cfg.maxResends.reached s.resends with
  | true => rw [State.timeoutStep_of_reached s hr]; exact h.enterError nofun (absurd rfl)
  | false =>
    rw [State.timeoutStep_of_not_reached s hr]
    have hok : State.AwaitingOk { s with resends := s.resends + 1, outbox := s.outbox ++ [.tx s.lastTx] } :=
      { h with resends := ResendBound.allows_succ hr }
    exact hok.inv hs

theorem clearResends (h : s.AwaitingOk) : s.clearResends.AwaitingOk :=
  { h with resends := ResendBound.allows_zero _ }

theorem captureAndDecode (h : s.AwaitingOk) (D : Bytes) : (s.captureAndDecode D).AwaitingOk :=
  { h with resends := ResendBound.allows_zero _, deint := rfl }

theorem sendNack (h : s.AwaitingOk) : s.sendNack.Inv := by
  rw [State.sendNack_eq]
  exact (State.inv_iff_awaitingOk rfl).2 { h with }

theorem dupAck (h : s.AwaitingOk) : s.dupAck.Inv := by
  rw [State.dupAck_eq]
  exact (State.inv_iff_awaitingOk rfl).2 { h with }

theorem acceptFull (h : s.AwaitingOk) {out : Bytes} (hout : out.length = s.cfg.fullDataBytes) :
    (s.acceptFull out s.cfg.fullDataBytes).Inv := by
  rw [State.acceptFull_eq]
  exact (State.inv_iff_awaitingOk rfl).2 { h with pendData := hout, pendLen := Nat.le_refl _, pendFull := fun _ => rfl }

theorem acceptTerminal (h : s.AwaitingOk) {out : Bytes} {len : Nat} (hlen : len ≤ out.length)
    (hout : out.length ≤ s.cfg.fullDataBytes) : (s.acceptTerminal out len).Inv := by
  have hdata : (overwrite s.pendData out).length = s.cfg.fullDataBytes := by
    rw [overwrite, List.length_append, List.length_drop, h.pendData, Nat.add_sub_cancel' hout]
  rw [State.acceptTerminal_eq]
  refine ⟨⟨hdata, hlen.trans hout, nofun⟩, ?_, nofun, h.resends, h.deint⟩
  simp [State.SessionOk, Session.resting, h.errKind, h.errMsg]

end State.AwaitingOk

theorem Transition.inv (h : Transition i s t) (hinv : s.Inv) : t.Inv := by
  have hok : s.state = .awaitingBlock → s.AwaitingOk := fun hs => (State.inv_iff_awaitingOk hs).1 hinv
  cases h with
  | ignored => exact hinv
  | emitted o => exact hinv
  | reset => exact State.resetWith_inv s.cfg
  | noHost => exact hinv.noHost
  | requested => exact hinv.sendRequest _ _
  | timedOut hs => exact (hok hs).timeoutStep hs
  | faulted hs => exact State.AwaitingOk.timeoutStep (s := s.report _) { hok hs with } hs
  | serverError hs D => exact (hok hs).clearResends.enterError nofun fun _ => rfl
  | nacked hs D => exact ((hok hs).captureAndDecode D).sendNack
  | mismatched hs D => exact ((hok hs).captureAndDecode D).dupAck
  | acceptedFull hs D hout => exact ((hok hs).captureAndDecode D).acceptFull hout
  | acceptedTerminal hs D hlen hout => exact ((hok hs).captureAndDecode D).acceptTerminal hlen hout

end

/-- Settles O4: a step waits or makes a transition, and every transition keeps the invariant, which does not speak of the inbox. -/
theorem everyStepKeepsTheInvariant : Obligations.EveryStepKeepsTheInvariant := by
  intro s t hinv h
  obtain rfl | ⟨i, hexec⟩ := step_eq_next h
  · exact hinv
  · exact (transition_of_exec hexec).inv hinv

/-- Settles O3: the invariant holds of the reset values of any parameters, the default ones among them. -/
theorem resetMeetsTheInvariant : Obligations.ResetMeetsTheInvariant :=
  ⟨State.resetWith_inv, State.resetWith_inv Params.default⟩

end Sys2Proof.Machine
end

section
/-! One instruction at a time (10_state.md R32-R34, 43_session.md R172, R175, R177): RESET, the rows that only emit, the refusals,
and what the receive buffer cuts off; the fetch; and two facts of the packet decoder. -/

namespace Sys2Proof.Machine

/-! ## Reset -/

/-- Settles O1: RESET takes the reset values of its parameters. -/
theorem resetWritesEveryResetValue : Obligations.ResetWritesEveryResetValue := fun _ => rfl

/-- Settles O2: the reset values are written out in `State.resetWith`. -/
theorem resetStateHoldsTheResetValues : Obligations.ResetStateHoldsTheResetValues := ⟨fun _ => rfl, rfl⟩

/-! ## Rows that are no event -/

section
variable (s : State)

theorem exec_rrq (name mode : Bytes) : exec (.rrq name mode) s = .next (s.emit (.tx (requestBytes 0x01 name mode))) := rfl

theorem exec_rrqErr (name mode : Bytes) : exec (.rrqErr name mode) s = .next (s.emit (.tx (requestBytes 0x02 name mode))) := rfl

theorem exec_ack (v : BlockNo) : exec (.ack v) s = .next (s.emit (.tx (ackBytes v))) := rfl

theorem exec_nack (v : BlockNo) : exec (.nack v) s = .next (s.emit (.tx (nackBytes v))) := rfl

theorem exec_hamCodeword (cw : Codeword) : exec (.hamCodeword cw) s = .next (s.emit (.codec (hamDecode s.cfg cw))) := rfl

end

theorem length_requestBytes (op : Byte) (name mode : Bytes) :
    (requestBytes op name mode).length = 4 + name.length + mode.length := by
  simp only [requestBytes, List.length_append, List.length_cons, List.length_nil]
  omega

theorem ackBytes_blockOf (hi lo : Byte) : ackBytes (blockOf hi lo) = [0x00, 0x04, hi, lo] := by
  rw [ackBytes, blockHi_blockOf, blockLo_blockOf]

theorem nackBytes_blockOf (hi lo : Byte) : nackBytes (blockOf hi lo) = [0x00, 0x06, hi, lo] := by
  rw [nackBytes, blockHi_blockOf, blockLo_blockOf]

/-- Settles O9: the output of each of the five rows, which but for the codeword's does not even read the parameters. -/
theorem onlyEventsReadOrWriteRegisters : Obligations.OnlyEventsReadOrWriteRegisters := by
  intro i p hi
  cases i with
  | rrq name mode => exact ⟨_, fun s _ => exec_rrq s name mode⟩
  | rrqErr name mode => exact ⟨_, fun s _ => exec_rrqErr s name mode⟩
  | ack v => exact ⟨_, fun s _ => exec_ack s v⟩
  | nack v => exact ⟨_, fun s _ => exec_nack s v⟩
  | hamCodeword cw => exact ⟨[.codec (hamDecode p cw)], fun s hs => hs ▸ exec_hamCodeword s cw⟩
  | error | data | rxOther | runt | reset | start | rx | timeout | fault => cases hi

/-- Settles O31: the request is what START would send with that mode. -/
theorem requestRowsSendTheirDatagram : Obligations.RequestRowsSendTheirDatagram := fun name mode s =>
  ⟨exec_rrq s name mode, exec_rrqErr s name mode, length_requestBytes 0x01 name mode⟩

/-- Settles O32: the two bytes of the block number come back from it. -/
theorem ackRowsSendTheirDatagram : Obligations.AckRowsSendTheirDatagram := by
  rintro v hi lo s rfl
  rw [exec_ack, exec_nack, ackBytes_blockOf, nackBytes_blockOf]
  exact ⟨rfl, rfl⟩

/-- Settles O33: the codeword of a fragment is valid, so that a single error in it is found and undone. -/
theorem codewordRowEmitsTheDecodedFragment : Obligations.CodewordRowEmitsTheDecodedFragment := by
  refine ⟨fun cw s => exec_hamCodeword s cw, fun f q s hq => ?_⟩
  rw [exec_hamCodeword, (validCodeword_encodeFrag f).hamDecode_xor_single s.cfg (by omega), extract_encodeFrag]
  rfl

/-! ## Refusals -/

section
variable {s : State} (f : State → State)

theorem State.whenAwaiting_transient (hs : s.state.resting = false) :
    s.whenAwaiting f = .refused .eventInTransientState := by
  rw [State.whenAwaiting]
  cases hstate : s.state with
  | idle | awaitingBlock | done | error => rw [hstate] at hs; cases hs
  | requestSent | acknowledging | nacking | finishing => rfl

theorem State.whenIdle_transient (hs : s.state.resting = false) : s.whenIdle f = .refused .eventInTransientState := by
  rw [State.whenIdle]
  cases hstate : s.state with
  | idle | awaitingBlock | done | error => rw [hstate] at hs; cases hs
  | requestSent | acknowledging | nacking | finishing => rfl

end

/-- Settles O11: every such event goes through the dispatch on STATE, which refuses it. -/
theorem transientStatesRefuseEvents : Obligations.TransientStatesRefuseEvents := by
  refine fun s hs => ⟨fun i hi => ?_, fun op name addr hvalid => ?_⟩
  · obtain ⟨f, hf⟩ := exists_exec_eq_whenAwaiting hi
    rw [hf, State.whenAwaiting_transient f hs]
  · obtain ⟨f, hf⟩ := exists_exec_start_eq_whenIdle addr hvalid
    rw [hf, State.whenIdle_transient f hs]

/-- Settles O12: the operands are tested before the dispatch. -/
theorem invalidStartIsRefused : Obligations.InvalidStartIsRefused :=
  fun _ _ addr s h => exec_start_invalid addr s h

/-! ## START without an address -/

theorem exec_start_none {op : Byte} {name : Bytes} {s : State} (hvalid : ValidStart op name) (hs : s.state = .idle) :
    exec (.start op name .none) s = .next s.beginTransfer.noHost :=
  (if_pos hvalid).trans (s.whenIdle_idle hs)

/-- Settles O14: what START writes before the test of the address, then the fatal condition. -/
theorem startWithoutAddressIsFatal : Obligations.StartWithoutAddressIsFatal := by
  intro op name s hs hop hname
  rw [exec_start_none ⟨hop, hname⟩ hs, State.noHost_eq]
  rfl

/-! ## Datagrams longer than the receive buffer -/

section
variable (s : State)

/-- The dispatch runs the event at the state it is taken in, and nowhere else. -/
theorem State.whenAwaiting_congr {f g : State → State} (h : f s = g s) : s.whenAwaiting f = s.whenAwaiting g := by
  rw [State.whenAwaiting, State.whenAwaiting, h]

theorem State.received_received (D : Bytes) : s.received (s.received D) = s.received D := by
  rw [State.received, State.received, List.take_take, Nat.min_self]

/-- The receive buffer holds the header, and cuts what is behind it only once. -/
theorem State.received_header_append_take (x0 x1 x2 x3 : Byte) (rest : Bytes) :
    s.received ([x0, x1, x2, x3] ++ rest.take (4 * s.cfg.nCw)) = s.received ([x0, x1, x2, x3] ++ rest) := by
  rw [State.received_header_append, State.received_header_append, List.take_take, Nat.min_self]

theorem State.rxStep_received (D : Bytes) : s.rxStep (s.received D) = s.rxStep D := by
  rw [State.rxStep, State.rxStep, State.received_received]

end

/-- Settles O25: each of the four meanings reads its datagram through the receive buffer. -/
theorem longDatagramsAreCut : Obligations.LongDatagramsAreCut := by
  refine ⟨fun D s => ?_, fun b0 v rest s => ?_, fun b0 op v rest s => ?_, fun b0 x y rest s => ?_⟩
  · rw [exec_rx, exec_rx]
    exact s.whenAwaiting_congr (s.rxStep_received D).symm
  · rw [exec_data, exec_data]
    exact s.whenAwaiting_congr (congrArg _ (s.received_header_append_take ..).symm)
  · rw [exec_rxOther, exec_rxOther]
    exact s.whenAwaiting_congr (congrArg _ (s.received_header_append_take ..).symm)
  · rw [exec_error, exec_error]
    exact s.whenAwaiting_congr (congrArg _ (s.received_header_append_take ..).symm)

/-! ## The fetch -/

/-- Settles O34: the item is taken before the instruction runs. -/
theorem stepRunsTheDecodedInstruction : Obligations.StepRunsTheDecodedInstruction := by
  intro s it rest i hin hi _
  have htaken : s.taken = { s with inbox := rest } := by rw [State.taken, hin, List.tail_cons]
  rw [step_of_decode hin hi, htaken]

theorem step_of_inbox_nil {s : State} (h : s.inbox = []) : step s = .next s := by
  rw [step, h]

theorem step_of_decode_error {s : State} {it : Item} {rest : List Item} {e : DecodeError} (hin : s.inbox = it :: rest)
    (he : decode s.cfg it = .error e) : step s = .refused (.undecodable e) := by
  rw [step, hin]
  dsimp only
  rw [he]

/-- Settles O35: the two ways in which a step runs no instruction. -/
theorem stepWaitsOrRefusesOtherwise : Obligations.StepWaitsOrRefusesOtherwise :=
  ⟨fun _ => step_of_inbox_nil, fun _ _ _ _ => step_of_decode_error⟩

/-- Settles O39: the decoder runs on each of the inputs. -/
theorem writtenOutEncodingsDecode : Obligations.WrittenOutEncodingsDecode :=
  ⟨rfl, rfl, rfl, rfl, rfl, rfl, rfl⟩

/-! ## The packet decoder -/

/-- Settles O55: DEINT_BEGIN clears the registers whatever they held, and they are discarded at the end. -/
theorem carryNeverCrossesDatagrams : Obligations.CarryNeverCrossesDatagrams :=
  fun p d D => ⟨rfl, packetDecode_deint p d D⟩

/-- Settles O59: the bytes come back with the zero bytes that fill the last codeword or group. -/
theorem anEncodedBlockDecodesToItsBytes : Obligations.AnEncodedBlockDecodesToItsBytes := by
  intro p blk bytes hmap hpacking horder
  obtain ⟨z, hz3, hz⟩ := exists_dlen_fragCount bytes.length
  exact ⟨z, hz3, packetDecode_encodeBlock hmap hpacking horder Deint.clear blk bytes hz⟩

end Sys2Proof.Machine
end
